-- ==== Sys2Proof/Word.lean ====
section
/-! DEFINITION. The words of the IRDATA codec core: durations, the command word, the control byte and the data value.
Durations and indices are natural numbers (00_scope.md R9, D10); what the spec treats as bits is a bit vector. -/

namespace Sys2Proof

/-- A duration on the wire, in microseconds, exact and unbounded (00_scope.md R9; 20_memory.md R39). -/
abbrev Micros := Nat

/-- The parallel command word of the host (30_encoding.md R65). It has no byte order (20_memory.md R44). -/
abbrev CommandWord := BitVec 80

/-- The control byte: the control payload, in R7's split the prefix in bits 7..3 and the type in bits 2..0 (30_encoding.md
R60). An instance with a shorter payload has it in the low bits (log 3). -/
abbrev ControlByte := BitVec 8

/-- The container of a data value, the 64 bits of `VALUE`, `ACC` and `RES_VALUE` (30_encoding.md R65; 10_state.md R19, R26).
`W_VALUE` is at most this (log 3). -/
abbrev DataValue := BitVec 64

end Sys2Proof
end

