-- ==== Sys2Proof/Machine/Timing.lean ====
section
/-! DEFINITION. The `Timing` record of 40_timing_codec.md R72 and its normative instance. -/

namespace Sys2Proof

/-- The `Timing` record of 40_timing_codec.md R72: durations in microseconds and the tolerance fraction. -/
structure Timing where
  hdrMark   : Micros
  hdrSpace  : Micros
  oneMark   : Micros
  oneSpace  : Micros
  zeroMark  : Micros
  zeroSpace : Micros
  endMark   : Micros
  endSpace  : Micros
  minGap    : Micros
  tolNum    : Nat
  tolDen    : Nat
  deriving DecidableEq, Repr

/-- The normative instance of 40_timing_codec.md R72. -/
def Timing.normative : Timing where
  hdrMark   := 9000
  hdrSpace  := 4500
  oneMark   := 560
  oneSpace  := 1690
  zeroMark  := 560
  zeroSpace := 560
  endMark   := 560
  endSpace  := 0
  minGap    := 25000
  tolNum    := 1
  tolDen    := 4

/-- The durations a MATCH may expect: the `Timing` constants (40_timing_codec.md R74). -/
def Timing.constants (t : Timing) : List Micros :=
  [t.hdrMark, t.hdrSpace, t.oneMark, t.oneSpace, t.zeroMark, t.zeroSpace, t.endMark, t.endSpace, t.minGap]

end Sys2Proof
end

