-- ==== Sys2Proof/Machine/Flags.lean ====
section
/-! DEFINITION. The tolerant matcher, the symbol classifiers and the check of their windows. The classifiers compute the block's only condition code, ISCTRL
(10_state.md R21), and every bit the decoder reads. -/

namespace Sys2Proof.Machine

/-- The product `TOL_DEN * |actual - expected|`, over the integers (40_timing_codec.md R74). -/
def scaledDeviation (t : Timing) (actual expected : Micros) : Nat :=
  t.tolDen * ((actual : Int) - (expected : Int)).natAbs

/-- MATCH, the source's `withinTolerance`, in the exact integer form of 40_timing_codec.md R74. -/
def withinTolerance (t : Timing) (actual expected : Micros) : Bool :=
  decide (scaledDeviation t actual expected ≤ t.tolNum * expected)

/-- `isHeader(m, s)` of 40_timing_codec.md R79. -/
def isHeader (t : Timing) (m s : Micros) : Bool :=
  withinTolerance t m t.hdrMark && withinTolerance t s t.hdrSpace

/-- `isOne(m, s)` of 40_timing_codec.md R79. -/
def isOne (t : Timing) (m s : Micros) : Bool :=
  withinTolerance t m t.oneMark && withinTolerance t s t.oneSpace

/-- `isZero(m, s)` of 40_timing_codec.md R79. -/
def isZero (t : Timing) (m s : Micros) : Bool :=
  withinTolerance t m t.zeroMark && withinTolerance t s t.zeroSpace

/-- An end marker's pair: the end mark with no timed space (30_encoding.md R54, R56). The decoder never tests it
(40_timing_codec.md R73); only the reading of a symbol row does (log 20). -/
def isEnd (t : Timing) (m s : Micros) : Bool :=
  withinTolerance t m t.endMark && withinTolerance t s t.endSpace

/-! ### The check of a `Timing` instance -/

/-- How far a duration may lie from `expected` and match it: the window form of 40_timing_codec.md R76, `e div 4` under the
normative tolerance. -/
def windowReach (t : Timing) (expected : Micros) : Nat := t.tolNum * expected / t.tolDen

/-- Some duration matches both expected values: the closed intervals of 40_timing_codec.md R77 meet. With a zero denominator
every duration matches every value (R74). -/
def windowsMeet (t : Timing) (e e' : Micros) : Bool :=
  decide (t.tolDen = 0 ∨
    (e - windowReach t e ≤ e' + windowReach t e' ∧ e' - windowReach t e' ≤ e + windowReach t e))

/-- The check that 40_timing_codec.md R80 asks of a model built with another `Timing`: the windows of the header, of Logical
1 and of Logical 0 are apart by the mark or by the space, so that no pair is classified two ways. -/
def windowsApart (t : Timing) : Bool :=
  !(windowsMeet t t.oneMark t.zeroMark && windowsMeet t t.oneSpace t.zeroSpace) &&
    !(windowsMeet t t.hdrMark t.oneMark && windowsMeet t t.hdrSpace t.oneSpace) &&
    !(windowsMeet t t.hdrMark t.zeroMark && windowsMeet t t.hdrSpace t.zeroSpace)

end Sys2Proof.Machine
end

