-- ==== Sys2Proof/Config.lean ====
section
/-! DEFINITION. The configuration of one core instance (00_scope.md R7, R8; 40_timing_codec.md R72), its validity
(70_reset_and_hazards.md R132), the normative instance, and the free values the spec leaves open. -/

namespace Sys2Proof

/-- Every parameter of 00_scope.md R7, one record (R8), plus whether the capture port saturates (20_memory.md R39). -/
structure Params where
  wValue         : Nat
  maxDataBits    : Nat
  ctrlBits       : Nat
  ctrlPrefixBits : Nat
  ctrlTypeBits   : Nat
  ctrlPrefix     : BitVec 5
  minCaptureLen  : Nat
  timing         : Timing
  captureMax     : Nat
  sampleW        : Nat
  cursorW        : Nat
  protocolId     : Nat
  protoW         : Nat
  portSaturates  : Bool
  deriving DecidableEq, Repr

/-- The counts and widths have the values that 00_scope.md R7 gives them: the normative ones, which the rules of the spec
write beside each name. -/
abbrev Params.CountsOfR7 (p : Params) : Prop :=
  p.wValue = 64 ∧ p.maxDataBits = 64 ∧ p.ctrlBits = 8 ∧ p.ctrlPrefixBits = 5 ∧ p.ctrlTypeBits = 3 ∧
    p.minCaptureLen = 6

/-- A set of counts and widths that the registers and fields hold, whose own widths the rules state (00_scope.md R8; log 3,
DESIGN CHOICE): a data value fits `ACC` and `RES_VALUE` (10_state.md R19, R26) and holds every bit that is read; the control
payload is a prefix and a type field that holds 1 to 4, in one byte (30_encoding.md R60); and a capture long enough to be
examined has the samples 1 to 4 that 42_decoder.md R93 and R94 read (20_memory.md R37). -/
abbrev Params.CountsFit (p : Params) : Prop :=
  p.wValue ≤ 64 ∧ 1 ≤ p.maxDataBits ∧ p.maxDataBits ≤ p.wValue ∧ p.ctrlBits ≤ p.wValue ∧ p.ctrlBits ≤ 8 ∧
    p.ctrlPrefixBits + p.ctrlTypeBits = p.ctrlBits ∧ 1 ≤ p.ctrlPrefixBits ∧ 3 ≤ p.ctrlTypeBits ∧
    p.ctrlPrefix.toNat < 2 ^ p.ctrlPrefixBits ∧ 5 ≤ p.minCaptureLen

/-- The constraints of 70_reset_and_hazards.md R132: the prefix's top bit is 1, which is `CTRL_PREFIX[4] = 1` for R7's five
bits (30_encoding.md R62), a nonzero `PROTOCOL_ID` that its field holds (10_state.md R27), a wide enough saturating sample
port (20_memory.md R39) and a wide enough cursor (10_state.md R18). DESIGN CHOICE, unsafe: the `Timing` record is not
constrained, and overlapping match windows are valid; 40_timing_codec.md R80 asks for a check of another instance, which
`Config` carries, and names no consequence (log 29). DESIGN CHOICE, safe: `CAPTURE_MAX` has no lower bound. 20_memory.md
R35, which R132 asks it to meet, requires `2N + 4`, 132 for `N = 64`, for the round trips to hold, not for an instance to
be valid (log 31). -/
abbrev Params.Valid (p : Params) : Prop :=
  p.CountsFit ∧ p.ctrlPrefix.getLsbD (p.ctrlPrefixBits - 1) = true ∧ p.protocolId ≠ 0 ∧ p.protocolId < 2 ^ p.protoW ∧
    11250 < 2 ^ p.sampleW - 1 ∧ p.portSaturates = true ∧ max 19 p.captureMax < 2 ^ p.cursorW

/-- A configuration the rules of the spec hold for: the parameters with their validity, so that an invalid one cannot
be built, and with the answer of the check that 40_timing_codec.md R80 asks for, so that none is built unchecked (log 29). It
is constant for the life of an instance (20_memory.md R52). -/
structure Config extends Params where
  valid           : toParams.Valid
  /-- No pair is classified two ways under this `Timing` (40_timing_codec.md R80). -/
  windowsApart    : Bool
  windowsApart_eq : windowsApart = Machine.windowsApart timing
  deriving DecidableEq, Repr

/-- The configuration of valid parameters: the windows of its `Timing` are checked (40_timing_codec.md R80). -/
def Config.ofParams (p : Params) (h : p.Valid) : Config where
  toParams        := p
  valid           := h
  windowsApart    := Machine.windowsApart p.timing
  windowsApart_eq := rfl

@[simp] theorem Config.ofParams_toParams (p : Params) (h : p.Valid) : (Config.ofParams p h).toParams = p := rfl

/-! The open parameters of 00_scope.md R7, uninterpreted (log 2). Each is offset so that every valid value is
reached and no other. -/

/-- `PROTOCOL_ID` less one: the identifier is any nonzero number (92_eei_decisions.md D14). -/
opaque Config.openProtocolId : Nat

/-- How many bits `PROTO_W` has beyond the fewest that hold `PROTOCOL_ID`. -/
opaque Config.openProtoW : Nat

/-- `CAPTURE_MAX`, any number (92_eei_decisions.md D11). -/
opaque Config.openCaptureMax : Nat

/-- How many bits `SAMPLE_W` has beyond the fewest that 20_memory.md R39 allows. -/
opaque Config.openSampleW : Nat

/-- How many bits `CURSOR_W` has beyond the fewest that 10_state.md R18 allows. -/
opaque Config.openCursorW : Nat

/-- The emitter's level after a reset that cut a command (70_reset_and_hazards.md R131; log 11). -/
opaque Config.freeLevel : Nat → Bool

/-- What a register reads as during a DECODE (10_state.md R28; log 12). -/
opaque Config.freeBits : (w : Nat) → Nat → BitVec w

/-- The parameters with the values R7 gives, and the open ones as stated. -/
def Params.normative (captureMax sampleW cursorW protocolId protoW : Nat) : Params where
  wValue         := 64
  maxDataBits    := 64
  ctrlBits       := 8
  ctrlPrefixBits := 5
  ctrlTypeBits   := 3
  ctrlPrefix     := 0b10100
  minCaptureLen  := 6
  timing         := Timing.normative
  captureMax     := captureMax
  sampleW        := sampleW
  cursorW        := cursorW
  protocolId     := protocolId
  protoW         := protoW
  portSaturates  := true

theorem Params.normative_valid {captureMax sampleW cursorW protocolId protoW : Nat} (hp : protocolId ≠ 0)
    (hw : protocolId < 2 ^ protoW) (hs : 14 ≤ sampleW) (hc : max 19 captureMax < 2 ^ cursorW) :
    (Params.normative captureMax sampleW cursorW protocolId protoW).Valid := by
  have h14 : 2 ^ 14 ≤ 2 ^ sampleW := Nat.pow_le_pow_right (by decide) hs
  refine ⟨?_, ?_, hp, hw, ?_, rfl, hc⟩
  · show 64 ≤ 64 ∧ 1 ≤ 64 ∧ 64 ≤ 64 ∧ 8 ≤ 64 ∧ 8 ≤ 8 ∧ 5 + 3 = 8 ∧ 1 ≤ 5 ∧ 3 ≤ 3 ∧ (0b10100#5).toNat < 2 ^ 5 ∧ 5 ≤ 6
    decide
  · show (0b10100#5 : BitVec 5).getLsbD 4 = true
    decide
  · show 11250 < 2 ^ sampleW - 1
    omega

/-- The configuration of the machine after power-on: R7's values, with the open parameters uninterpreted. -/
def Config.normative : Config :=
  Config.ofParams
    (Params.normative Config.openCaptureMax (14 + Config.openSampleW)
      (Nat.log2 (max 19 Config.openCaptureMax) + 1 + Config.openCursorW) (Config.openProtocolId + 1)
      (Nat.log2 (Config.openProtocolId + 1) + 1 + Config.openProtoW))
    (Params.normative_valid (Nat.succ_ne_zero _)
      (Nat.lt_of_lt_of_le Nat.lt_log2_self (Nat.pow_le_pow_right (by decide) (Nat.le_add_right _ _)))
      (Nat.le_add_right _ _)
      (Nat.lt_of_lt_of_le Nat.lt_log2_self (Nat.pow_le_pow_right (by decide) (Nat.le_add_right _ _))))

/-! What the validity of a configuration says of its counts, one lemma each. -/

theorem Config.wValue_le (c : Config) : c.wValue ≤ 64 := c.valid.1.1
theorem Config.maxDataBits_pos (c : Config) : 1 ≤ c.maxDataBits := c.valid.1.2.1
theorem Config.maxDataBits_le (c : Config) : c.maxDataBits ≤ c.wValue := c.valid.1.2.2.1
theorem Config.ctrlBits_le_wValue (c : Config) : c.ctrlBits ≤ c.wValue := c.valid.1.2.2.2.1
theorem Config.ctrlBits_le (c : Config) : c.ctrlBits ≤ 8 := c.valid.1.2.2.2.2.1
theorem Config.ctrlBits_split (c : Config) : c.ctrlPrefixBits + c.ctrlTypeBits = c.ctrlBits := c.valid.1.2.2.2.2.2.1
theorem Config.ctrlPrefixBits_pos (c : Config) : 1 ≤ c.ctrlPrefixBits := c.valid.1.2.2.2.2.2.2.1
theorem Config.ctrlTypeBits_le (c : Config) : 3 ≤ c.ctrlTypeBits := c.valid.1.2.2.2.2.2.2.2.1
theorem Config.ctrlPrefix_lt (c : Config) : c.ctrlPrefix.toNat < 2 ^ c.ctrlPrefixBits := c.valid.1.2.2.2.2.2.2.2.2.1
theorem Config.minCaptureLen_le (c : Config) : 5 ≤ c.minCaptureLen := c.valid.1.2.2.2.2.2.2.2.2.2
theorem Config.ctrlPrefix_top (c : Config) : c.ctrlPrefix.getLsbD (c.ctrlPrefixBits - 1) = true := c.valid.2.1
theorem Config.protocolId_ne_zero (c : Config) : c.protocolId ≠ 0 := c.valid.2.2.1

end Sys2Proof
end

