-- ==== Sys2Proof/Syntax.lean ====
section
/-! DEFINITION. The instructions: one constructor per row of spec/opcode_table.json (30_encoding.md R68, R69, R54,
R61). -/

namespace Sys2Proof

/-- The closed set of control codes (00_scope.md R14; 30_encoding.md R60). -/
inductive ControlCode where
  | start
  | endCode
  | ack
  | nack
  deriving DecidableEq, Repr

/-- The instructions of the core. -/
inductive Instr where
  /-- SENDC_START, 41_sender.md R86. -/
  | sendcStart
  /-- SENDC_END, 41_sender.md R86. -/
  | sendcEnd
  /-- SENDC_ACK, 41_sender.md R86. -/
  | sendcAck
  /-- SENDC_NACK, 41_sender.md R86. -/
  | sendcNack
  /-- SENDD value, count: 41_sender.md R87. -/
  | sendd (value : DataValue) (count : BitVec 8)
  /-- DECODE, 42_decoder.md R90. Its operand is the capture at the capture port. -/
  | decode
  /-- MATCH actual, expected: 40_timing_codec.md R74. -/
  | matchOp (actual expected : Micros)
  /-- SENDBIT bit: 41_sender.md R83. -/
  | sendBit (bit : Bool)
  /-- SENDHDR, 41_sender.md R84. -/
  | sendHdr
  /-- SENDEND, 41_sender.md R85. -/
  | sendEnd
  /-- GETBIT at a cursor: 42_decoder.md R95. -/
  | getBit (cursor : Nat)
  /-- The wire symbol Header, 30_encoding.md R54. -/
  | wireHeader
  /-- The wire symbol Logical 1, 30_encoding.md R54. -/
  | wireBit1
  /-- The wire symbol Logical 0, 30_encoding.md R54. -/
  | wireBit0
  /-- The wire symbol End marker, 30_encoding.md R54. -/
  | wireEnd
  /-- The control byte Start, 30_encoding.md R61. -/
  | ctrlStart
  /-- The control byte End, 30_encoding.md R61. -/
  | ctrlEnd
  /-- The control byte Ack, 30_encoding.md R61. -/
  | ctrlAck
  /-- The control byte Nack, 30_encoding.md R61. -/
  | ctrlNack
  deriving DecidableEq, Repr

/-- The three commands of the host (60_exceptions.md R123), with the operands of 30_encoding.md R66. -/
inductive Command where
  | sendControl (code : ControlCode)
  | sendData (value : DataValue) (count : BitVec 8)
  | decode
  deriving DecidableEq, Repr

/-- The opcode-table row of a SEND_CONTROL (30_encoding.md R68). -/
def Instr.ofSendControl (code : ControlCode) : Instr :=
  match code with
  | .start   => .sendcStart
  | .endCode => .sendcEnd
  | .ack     => .sendcAck
  | .nack    => .sendcNack

/-- The opcode-table row of a command (30_encoding.md R68). -/
def Instr.ofCommand (c : Command) : Instr :=
  match c with
  | .sendControl code => Instr.ofSendControl code
  | .sendData v n     => .sendd v n
  | .decode           => .decode

/-- The opcode-table row of a control byte (30_encoding.md R61). -/
def Instr.ofControlCode (code : ControlCode) : Instr :=
  match code with
  | .start   => .ctrlStart
  | .endCode => .ctrlEnd
  | .ack     => .ctrlAck
  | .nack    => .ctrlNack

/-- The command a host-selectable row stands for; the other rows are not host-selectable (30_encoding.md R69). -/
def Instr.toCommand (i : Instr) : Option Command :=
  match i with
  | .sendcStart   => some (.sendControl .start)
  | .sendcEnd     => some (.sendControl .endCode)
  | .sendcAck     => some (.sendControl .ack)
  | .sendcNack    => some (.sendControl .nack)
  | .sendd v n    => some (.sendData v n)
  | .decode       => some .decode
  | .matchOp _ _  => none
  | .sendBit _    => none
  | .sendHdr      => none
  | .sendEnd      => none
  | .getBit _     => none
  | .wireHeader   => none
  | .wireBit1     => none
  | .wireBit0     => none
  | .wireEnd      => none
  | .ctrlStart    => none
  | .ctrlEnd      => none
  | .ctrlAck      => none
  | .ctrlNack     => none

/-- The assembler form of a control code (30_encoding.md R70). -/
def ControlCode.assembly (code : ControlCode) : String :=
  match code with
  | .start   => "START"
  | .endCode => "END"
  | .ack     => "ACK"
  | .nack    => "NACK"

/-- The assembler line of a command (30_encoding.md R70). -/
def Command.assembly (c : Command) : String :=
  match c with
  | .sendControl code => "SENDC " ++ code.assembly
  | .sendData v n     => "SENDD " ++ toString v.toNat ++ ", " ++ toString n.toNat
  | .decode           => "DECODE"

end Sys2Proof
end

