-- ==== Sys2Proof/WellFormed.lean ====
section
/-! DEFINITION. Well-formed instructions and well-formed command words. Ill-formed ones still run as the spec says
(a reserved field is ignored); the checks say which terms the spec's own writer would write. -/

namespace Sys2Proof

/-- MATCH expects a `Timing` constant (40_timing_codec.md R74) and GETBIT's cursor fits the cursor register
(10_state.md R18); every operand of the other rows is legal (30_encoding.md R66). -/
def Instr.wellFormed (c : Config) (i : Instr) : Bool :=
  match i with
  | .sendcStart   => true
  | .sendcEnd     => true
  | .sendcAck     => true
  | .sendcNack    => true
  | .sendd _ _    => true
  | .decode       => true
  | .matchOp _ e  => decide (e ∈ c.timing.constants)
  | .sendBit _    => true
  | .sendHdr      => true
  | .sendEnd      => true
  | .getBit k     => decide (k < 2 ^ c.cursorW)
  | .wireHeader   => true
  | .wireBit1     => true
  | .wireBit0     => true
  | .wireEnd      => true
  | .ctrlStart    => true
  | .ctrlEnd      => true
  | .ctrlAck      => true
  | .ctrlNack     => true

/-- A well-formed command word has 0 in bits 7..5 and in every field its command does not use
(93_implementation_defined.md, row 3; 30_encoding.md R65). -/
def CommandWord.wellFormed (w : CommandWord) : Bool :=
  w.extractLsb' 5 3 == 0 &&
  match w.extractLsb' 0 2 with
  | 0b01#2 => w.extractLsb' 8 72 == 0
  | 0b10#2 => w.extractLsb' 2 3 == 0
  | 0b11#2 => w.extractLsb' 2 78 == 0
  | _      => false

end Sys2Proof
end

