-- ==== Sys2Proof/Decode.lean ====
section
/-! DEFINITION. The decoders of the core's three encodings (30_encoding.md): the command word (R65 to R68), the
control byte (R60, R63) and the wire symbol (R54), and after them the encoders, from the same tables. -/

namespace Sys2Proof

/-- Why a word, byte or pair is no instruction. -/
inductive DecodeError where
  /-- `OP = 00` (30_encoding.md R67). -/
  | reservedOp
  /-- `OP = 01` with `CTYPE` in 0, 5, 6, 7 (30_encoding.md R67). -/
  | reservedCtype (ctype : BitVec 3)
  /-- A control byte whose prefix field is not the prefix (30_encoding.md R63). -/
  | badPrefix
  /-- A control byte with the prefix and a type field outside 1 to 4 (30_encoding.md R63). -/
  | badType
  /-- A lone pair of durations that is none of the four symbols. DESIGN CHOICE: the spec gives such a pair a reading inside
  a frame only (log 26). -/
  | noSymbol
  deriving DecidableEq, Repr

/-! ### The command word -/

/-- Field `OP`, bits 1..0 (30_encoding.md R65). -/
def CommandWord.op (w : CommandWord) : BitVec 2 := w.extractLsb' 0 2

/-- Field `CTYPE`, bits 4..2 (30_encoding.md R65). -/
def CommandWord.ctype (w : CommandWord) : BitVec 3 := w.extractLsb' 2 3

/-- Field `COUNT`, bits 15..8 (30_encoding.md R65). -/
def CommandWord.count (w : CommandWord) : BitVec 8 := w.extractLsb' 8 8

/-- Field `VALUE`, bits 79..16 (30_encoding.md R65). -/
def CommandWord.value (w : CommandWord) : DataValue := w.extractLsb' 16 64

/-- The type value of a control code (30_encoding.md R60). -/
def ControlCode.type (code : ControlCode) : BitVec 3 :=
  match code with
  | .start   => 1
  | .endCode => 2
  | .ack     => 3
  | .nack    => 4

/-- The control code of a type value; every value but 1 to 4 names none (30_encoding.md R61). -/
def ControlCode.ofType {w : Nat} (ty : BitVec w) : Option ControlCode :=
  match ty.toNat with
  | 1 => some .start
  | 2 => some .endCode
  | 3 => some .ack
  | 4 => some .nack
  | _ => none

/-- The opcode map of 30_encoding.md R68, total on all 2^80 words. -/
def decodeCommand (w : CommandWord) : Except DecodeError Command :=
  match w.op with
  | 0b01#2 =>
    match ControlCode.ofType w.ctype with
    | some code => .ok (.sendControl code)
    | none      => .error (.reservedCtype w.ctype)
  | 0b10#2 => .ok (.sendData w.value w.count)
  | 0b11#2 => .ok .decode
  | _      => .error .reservedOp

/-- The instruction a command word selects. -/
def decode (w : CommandWord) : Except DecodeError Instr :=
  match decodeCommand w with
  | .ok c    => .ok (Instr.ofCommand c)
  | .error e => .error e

/-! ### The control byte -/

/-- `ctrl_byte(type) = {CTRL_PREFIX, type}` (30_encoding.md R60), the type field `CTRL_TYPE_BITS` wide. -/
def ctrlByte (p : Params) (code : ControlCode) : ControlByte :=
  (p.ctrlPrefix.setWidth 8 <<< p.ctrlTypeBits) ||| code.type.setWidth 8

/-- The low `CTRL_BITS` bits of what was read, the control payload: `B = ACC[7:0]` of 42_decoder.md R97. -/
def ctrlPayload {w : Nat} (p : Params) (v : BitVec w) : ControlByte := (v.setWidth p.ctrlBits).setWidth 8

/-- The prefix field of a control payload, `B[7:3]` (30_encoding.md R60). -/
def prefixField (p : Params) (b : ControlByte) : ControlByte := ctrlPayload p b >>> p.ctrlTypeBits

/-- The type field of a control payload, `B[2:0]` (30_encoding.md R60). -/
def typeField (p : Params) (b : ControlByte) : ControlByte := (b.setWidth p.ctrlTypeBits).setWidth 8

/-- What a received control byte names: first the prefix, then the type (30_encoding.md R63;
42_decoder.md R97; 60_exceptions.md R117). -/
def decodeCtrlByte (p : Params) (b : ControlByte) : Except DecodeError ControlCode :=
  if prefixField p b ≠ p.ctrlPrefix.setWidth 8 then .error .badPrefix
  else
    match ControlCode.ofType (typeField p b) with
    | some code => .ok code
    | none      => .error .badType

/-! ### The wire symbol -/

/-- The symbol a lone received pair is read as, tolerantly (30_encoding.md R54); Logical 1 is tried before Logical 0
(40_timing_codec.md R80). DESIGN CHOICE, safe, two points. The header is tried before the bits: a pair in both windows, which
only a non-normative `Timing` allows, is read as Header, and R80 gives no order there (log 28). A pair that matches none of
the four has no reading here: 30_encoding.md R64 reads such a bit pair as bit 0 inside a frame, which is GETBIT's rule
(`Machine.getbit`), and gives no reading outside one (log 26). -/
def decodeSymbol (t : Timing) (m s : Micros) : Except DecodeError Instr :=
  if Machine.isHeader t m s then .ok .wireHeader
  else if Machine.isOne t m s then .ok .wireBit1
  else if Machine.isZero t m s then .ok .wireBit0
  else if Machine.isEnd t m s then .ok .wireEnd
  else .error .noSymbol

/-! ### Encoding -/

/-- The three encodings of the core (30_encoding.md). -/
inductive Encoded where
  | command (w : CommandWord)
  | byte (b : ControlByte)
  | symbol (mark space : Micros)
  deriving DecidableEq, Repr

/-- A command word from its fields, bits 7..5 zero (30_encoding.md R65). -/
def commandWord (value : DataValue) (count : BitVec 8) (ctype : BitVec 3) (op : BitVec 2) : CommandWord :=
  value ++ count ++ 0#3 ++ ctype ++ op

/-- The word of a command, its unused fields 0 (30_encoding.md R70, R71). -/
def encodeCommand (c : Command) : CommandWord :=
  match c with
  | .sendControl code => commandWord 0 0 code.type 0b01
  | .sendData v n     => commandWord v n 0 0b10
  | .decode           => commandWord 0 0 0 0b11

/-- The encoding of an instruction; the internal operations have none (30_encoding.md R69). -/
def encode (c : Config) (i : Instr) : Option Encoded :=
  match i with
  | .sendcStart   => some (.command (encodeCommand (.sendControl .start)))
  | .sendcEnd     => some (.command (encodeCommand (.sendControl .endCode)))
  | .sendcAck     => some (.command (encodeCommand (.sendControl .ack)))
  | .sendcNack    => some (.command (encodeCommand (.sendControl .nack)))
  | .sendd v n    => some (.command (encodeCommand (.sendData v n)))
  | .decode       => some (.command (encodeCommand .decode))
  | .matchOp _ _  => none
  | .sendBit _    => none
  | .sendHdr      => none
  | .sendEnd      => none
  | .getBit _     => none
  | .wireHeader   => some (.symbol c.timing.hdrMark c.timing.hdrSpace)
  | .wireBit1     => some (.symbol c.timing.oneMark c.timing.oneSpace)
  | .wireBit0     => some (.symbol c.timing.zeroMark c.timing.zeroSpace)
  | .wireEnd      => some (.symbol c.timing.endMark c.timing.endSpace)
  | .ctrlStart    => some (.byte (ctrlByte c.toParams .start))
  | .ctrlEnd      => some (.byte (ctrlByte c.toParams .endCode))
  | .ctrlAck      => some (.byte (ctrlByte c.toParams .ack))
  | .ctrlNack     => some (.byte (ctrlByte c.toParams .nack))

/-- The instruction an encoding stands for. -/
def decodeEncoded (c : Config) (e : Encoded) : Except DecodeError Instr :=
  match e with
  | .command w  => decode w
  | .byte b     =>
    match decodeCtrlByte c.toParams b with
    | .ok code => .ok (Instr.ofControlCode code)
    | .error r => .error r
  | .symbol m s => decodeSymbol c.timing m s

/-! ### The opcode table's words -/

/-- The encoding of a table row of `nbits` bits with the bits `w`: one of the four control bytes of 30_encoding.md R61
where the row is 8 bits and names one, else a command word whose other bits are 0. No well-formed command word is
hidden by this: the four bytes have a bit of 7..5 set (log 10). -/
def tableEncoding (nbits w : Nat) : Encoded :=
  match decodeCtrlByte Config.normative.toParams (BitVec.ofNat 8 w) with
  | .ok _    => if nbits = 8 then .byte (BitVec.ofNat 8 w) else .command (BitVec.ofNat 80 (w % 2 ^ nbits))
  | .error _ => .command (BitVec.ofNat 80 (w % 2 ^ nbits))

/-- The instruction the decoder reads from a table row's bits. -/
def decodeTableWord (nbits w : Nat) : Option Instr :=
  match decodeEncoded Config.normative (tableEncoding nbits w) with
  | .ok i    => some i
  | .error _ => none

end Sys2Proof
end

