-- ==== Sys2Proof/Machine/State.lean ====
section
/-! DEFINITION. The state of one core instance as plain data (10_state.md R15 to R33), what the outside presents to it,
the ways a step can stop, and the state after power-on reset. -/

namespace Sys2Proof.Machine

/-- A pulse command at the emitter port (10_state.md R30; 20_memory.md R41). -/
inductive Pulse where
  | mark (d : Micros)
  | space (d : Micros)
  deriving DecidableEq, Repr

/-- PHASE, the state of the decode state machine (10_state.md R17). Its bits are not architected. -/
inductive Phase where
  | idle
  | reset
  | lengthCheck
  | headerCheck
  | discriminate
  | ctrlRead
  | ctrlCheck
  | dataRead
  | done
  deriving DecidableEq, Repr

/-- The six result registers (10_state.md R22 to R27). `proto` is the field of `PROTO_W` bits, held as a natural
number (log 18). -/
structure ResultRegs where
  status : BitVec 3
  kind   : BitVec 1
  ctype  : BitVec 3
  bits   : BitVec 7
  value  : BitVec 64
  proto  : Nat
  deriving DecidableEq, Repr

/-- The result registers as reset and RESET leave them (10_state.md R33; 42_decoder.md R91). -/
def ResultRegs.cleared : ResultRegs where
  status := 0
  kind   := 0
  ctype  := 0
  bits   := 0
  value  := 0
  proto  := 0

/-- What an internal operation answered to the command that used it; the model's own (log 6). -/
inductive OpReturn where
  | nothing
  | matched (yes : Bool)
  | gotBit (bit : Bool) (cursor : Nat)
  deriving DecidableEq, Repr

/-- What the host sees of the core: BUSY and the result registers (10_state.md R28, R29). -/
structure HostView where
  busy : Bool
  res  : ResultRegs
  deriving DecidableEq, Repr

/-- What the outside does to the core between two steps; the model's own (log 5). -/
inductive Input where
  /-- The host presents a command word, and the command runs as one step. -/
  | command (w : CommandWord)
  /-- The host presents a command word, and the command then runs one pulse or one rule a step (log 4). -/
  | present (w : CommandWord)
  /-- A control frame with this payload byte is received (log 9). -/
  | ctrlByte (b : ControlByte)
  /-- The substrate presents these samples (30_encoding.md R70, CAPTURE RAW). -/
  | captureRaw (samples : List Micros)
  /-- The substrate presents the reference capture of the last SEND (30_encoding.md R70, CAPTURE g). -/
  | captureRef (gap : Micros)
  /-- The host reads the result registers (10_state.md R28). -/
  | readResults
  /-- Reset is asserted (70_reset_and_hazards.md R129, R131). -/
  | reset
  /-- Nothing happens outside during this step. -/
  | quiet
  deriving DecidableEq, Repr

/-- The state. The fields from `cfg` and from `sending` on are the model's own (INVENTORY.md, State). -/
structure State where
  /-- The configuration; no step changes it (20_memory.md R52). -/
  cfg       : Config
  /-- PHASE, 10_state.md R17. -/
  phase     : Phase
  /-- CURSOR, 10_state.md R18. -/
  cursor    : Nat
  /-- ACC, 10_state.md R19. -/
  acc       : BitVec 64
  /-- NBITS, 10_state.md R20. -/
  nbits     : BitVec 7
  /-- ISCTRL, 10_state.md R21. -/
  isctrl    : Bool
  /-- RES_STATUS to RES_PROTO, 10_state.md R22 to R27. -/
  res       : ResultRegs
  /-- BUSY, 10_state.md R29. -/
  busy      : Bool
  /-- TRACE, 10_state.md R30, oldest pulse first. -/
  trace     : List Pulse
  /-- The pulses a SEND in progress has still to emit. -/
  sending   : List Pulse
  /-- The pulses the most recent SEND appended to `trace`. -/
  lastSend  : List Pulse
  /-- The samples at the capture port, sample 0 first (20_memory.md R34). -/
  capture   : List Micros
  /-- What the outside does next, in order. -/
  inputs    : List Input
  /-- What the last MATCH or GETBIT answered. -/
  ret       : OpReturn
  /-- What the host's last read returned. -/
  hostRead  : Option HostView
  /-- `some n` while the emitter's level is the free value `n` (70_reset_and_hazards.md R131). -/
  levelOpen : Option Nat
  /-- Which free values have not been used yet. -/
  freeCount : Nat
  deriving DecidableEq, Repr

/-- Why a step faults. -/
inductive Fault where
  /-- The decoder read a sample index at or past the capture's length. 20_memory.md R37 says that it never does; raised
  by `sampleAt` only, and only in states no run reaches (log 14). Safe: no behaviour is invented for such a state. -/
  | sampleOutOfRange (index : Nat)
  deriving DecidableEq, Repr

/-- Why a step is refused. -/
inductive Refusal where
  /-- Raised by `exec` for an instruction that has no meaning yet; none is left. Safe. -/
  | notModelled (mnemonic : String)
  /-- A command word with `OP = 00`, raised at the command port (30_encoding.md R67). Safe: the spec asks for it. -/
  | reservedOp
  /-- `OP = 01` with `CTYPE` 0, 5, 6 or 7, raised at the command port (30_encoding.md R67). Safe: the spec asks for it. -/
  | reservedCtype (ctype : BitVec 3)
  /-- A command presented while BUSY = 1, raised by every command (70_reset_and_hazards.md R133). Safe: the spec asks
  for it. -/
  | commandWhileBusy
  /-- The capture changed during a DECODE, raised at the capture port (70_reset_and_hazards.md R134). Safe: the spec
  asks for it. -/
  | captureChanged
  /-- A capture longer than `CAPTURE_MAX`, raised at the capture port (20_memory.md R35; log 16). Safe: no port can
  present one. -/
  | captureTooLong
  /-- An invalid configuration, raised by `powerOn` (70_reset_and_hazards.md R132). Safe: the spec asks for it. -/
  | configInvalid
  deriving DecidableEq, Repr

/-- The state after power-on reset (10_state.md R33; 70_reset_and_hazards.md R129) under a configuration. -/
def State.resetWith (c : Config) : State where
  cfg       := c
  phase     := .idle
  cursor    := 0
  acc       := 0
  nbits     := 0
  isctrl    := false
  res       := ResultRegs.cleared
  busy      := false
  trace     := []
  sending   := []
  lastSend  := []
  capture   := []
  inputs    := []
  ret       := .nothing
  hostRead  := none
  levelOpen := none
  freeCount := 0

/-- The machine right after reset, under the normative configuration. -/
def State.reset : State := State.resetWith Config.normative

end Sys2Proof.Machine
end

