-- ==== Sys2Proof/Machine/Operands.lean ====
section
/-! DEFINITION. The operand forms: command operands (30_encoding.md R66), payload bits (R57), pulse sequences (41_sender.md
R83 to R87), capture samples (20_memory.md R34) and the reference capture (R40). -/

namespace Sys2Proof.Machine

/-! ### Pulses -/

/-- `markOf(b)` of 40_timing_codec.md R81. -/
def markOf (t : Timing) (b : Bool) : Micros := if b then t.oneMark else t.zeroMark

/-- `spaceOf(b)` of 40_timing_codec.md R81. -/
def spaceOf (t : Timing) (b : Bool) : Micros := if b then t.oneSpace else t.zeroSpace

/-- `pulses(SENDBIT b)` of 41_sender.md R83. -/
def bitPulses (t : Timing) (b : Bool) : List Pulse := [.mark (markOf t b), .space (spaceOf t b)]

/-- `pulses(SENDHDR)` of 41_sender.md R84. -/
def headerPulses (t : Timing) : List Pulse := [.mark t.hdrMark, .space t.hdrSpace]

/-- `pulses(SENDEND)` of 41_sender.md R85. -/
def endPulses (t : Timing) : List Pulse := [.mark t.endMark, .space t.endSpace]

/-- The frame with these payload bits, first transmitted first (30_encoding.md R55). -/
def framePulses (t : Timing) (payload : List Bool) : List Pulse :=
  headerPulses t ++ payload.flatMap (bitPulses t) ++ endPulses t

/-- `concat_{i = n-1 down to 0}` of single bits (00_scope.md R10): the low `n` bits, most significant first
(30_encoding.md R57). -/
def msbFirst (bit : Nat → Bool) (n : Nat) : List Bool :=
  match n with
  | 0     => []
  | k + 1 => bit k :: msbFirst bit k

/-- `pulses(SEND_CONTROL code)` of 41_sender.md R86. -/
def controlPulses (c : Config) (code : ControlCode) : List Pulse :=
  framePulses c.timing (msbFirst (ctrlByte c.toParams code).getLsbD c.ctrlBits)

/-- `bitCount`: `COUNT` zero-extended (30_encoding.md R66). -/
def bitCount (count : BitVec 8) : Nat := count.toNat

/-- `pulses(SEND_DATA value, bitCount)` of 41_sender.md R87: nothing where the count is over `MAX_DATA_BITS`. -/
def dataPulses (c : Config) (value : DataValue) (count : BitVec 8) : List Pulse :=
  if bitCount count > c.maxDataBits then []
  else framePulses c.timing (msbFirst value.getLsbD (bitCount count))

/-! ### The capture -/

/-- `Sample(i)` (00_scope.md R11), defined only below the capture's length. -/
def sampleAt (capture : List Micros) (i : Nat) : Except Fault Micros :=
  match capture[i]? with
  | some d => .ok d
  | none   => .error (.sampleOutOfRange i)

/-- The pair `Sample(i)`, `Sample(i + 1)`. -/
def pairAt (capture : List Micros) (i : Nat) : Except Fault (Micros × Micros) :=
  match sampleAt capture i with
  | .error f => .error f
  | .ok m    =>
    match sampleAt capture (i + 1) with
    | .error f => .error f
    | .ok s    => .ok (m, s)

/-- GETBIT, `getbit(c) -> (b, c')` of 42_decoder.md R95. -/
def getbit (t : Timing) (capture : List Micros) (c : Nat) : Except Fault (Bool × Nat) :=
  if c + 1 ≥ capture.length then .ok (false, c + 2)
  else
    match pairAt capture c with
    | .error f => .error f
    | .ok (m, s) =>
      if isOne t m s then .ok (true, c + 2)
      else if isZero t m s then .ok (false, c + 2)
      else .ok (false, c + 2)

/-- The duration of a pulse, mark or space. -/
def Pulse.duration (p : Pulse) : Micros :=
  match p with
  | .mark d  => d
  | .space d => d

/-- A pulse train less its last pulse if that is `Space(0)` (20_memory.md R40). -/
def dropFinalIdle (pulses : List Pulse) : List Pulse :=
  if pulses.getLast? = some (.space 0) then pulses.dropLast else pulses

/-- `capture_of(pulses, g)` of 20_memory.md R40. -/
def captureOf (pulses : List Pulse) (gap : Micros) : List Micros :=
  gap :: (dropFinalIdle pulses).map Pulse.duration

/-- The time a pulse train takes on the wire (70_reset_and_hazards.md R141, informative). -/
def wireDuration (pulses : List Pulse) : Micros := (pulses.map Pulse.duration).sum

end Sys2Proof.Machine
end

