-- ==== Sys2Proof/Machine/Ops.lean ====
section
/-! DEFINITION. The shared operations on the state: emitting pulses, beginning and ending a command, ending a DECODE in
failure (the core's only exception entry, 60_exceptions.md R114) and in success (42_decoder.md R99), and reset. -/

namespace Sys2Proof.Machine

/-! ### The emitter port -/

/-- `Emit(p)`: append the pulse to TRACE (00_scope.md R11; 10_state.md R30). The emitter's level is then known again
(70_reset_and_hazards.md R131). -/
def emit (p : Pulse) (s : State) : State :=
  { s with trace := s.trace ++ [p], levelOpen := none }

/-- `for each p in pulses: Emit(p)` (41_sender.md). -/
def emitAll (pulses : List Pulse) (s : State) : State :=
  pulses.foldl (fun s p => emit p s) s

/-- The emitter's output level, derived from TRACE (10_state.md R31), or a free value after a reset that cut a command
(70_reset_and_hazards.md R131; log 11). -/
def emitterOn (s : State) : Bool :=
  match s.levelOpen with
  | some n => Config.freeLevel n
  | none   =>
    match s.trace.getLast? with
    | some (.mark _)  => true
    | some (.space _) => false
    | none            => false

/-! ### Commands -/

/-- A command is accepted: `BUSY <- 1` (10_state.md R29). -/
def accept (s : State) : State := { s with busy := true }

/-- A SEND completes: `BUSY <- 0` (41_sender.md R82). -/
def completeSend (s : State) : State := { s with busy := false }

/-- A SEND command as one step (41_sender.md R82): accepted only when BUSY = 0, the pulses emitted in order, BUSY back
to 0. A host that presents it while BUSY = 1 breaks 70_reset_and_hazards.md R133. -/
def sendCommand (pulses : List Pulse) (s : State) : Host.Outcome State Fault Refusal :=
  if s.busy then .refused .commandWhileBusy
  else .next (completeSend { emitAll pulses (accept s) with lastSend := pulses })

/-- A SEND is accepted, to run stepwise. -/
def beginSend (pulses : List Pulse) (s : State) : State :=
  { accept s with sending := pulses, lastSend := [] }

/-- One step of a SEND in progress: the next pulse, or the end of the command. -/
def sendRule (s : State) : State :=
  match s.sending with
  | []      => completeSend s
  | p :: ps => { emit p s with sending := ps, lastSend := s.lastSend ++ [p] }

/-- A DECODE is accepted: `BUSY <- 1; PHASE <- RESET` (42_decoder.md R90). -/
def beginDecode (s : State) : State := { accept s with phase := .reset }

/-! ### The end of a DECODE -/

/-- The four decode failures (60_exceptions.md R111). -/
inductive Failure where
  | bufferTooShort
  | headerMismatch
  | prefixMismatch
  | typeInvalid
  deriving DecidableEq, Repr

/-- `code(r)`, the RES_STATUS code of a failure (10_state.md R22; 60_exceptions.md R111). -/
def Failure.code (r : Failure) : BitVec 3 :=
  match r with
  | .bufferTooShort => 2
  | .headerMismatch => 3
  | .prefixMismatch => 4
  | .typeInvalid    => 5

/-- RES_STATUS code NONE (10_state.md R22). -/
def statusNone : BitVec 3 := 0

/-- RES_STATUS code OK (10_state.md R22). -/
def statusOk : BitVec 3 := 1

/-- RES_KIND value DATA (10_state.md R23). -/
def kindData : BitVec 1 := 0

/-- RES_KIND value CONTROL (10_state.md R23). -/
def kindControl : BitVec 1 := 1

/-- `raise Fail(r)` of 60_exceptions.md R114: the code is recorded, the DECODE completes, and nothing else changes. -/
def raiseFail (r : Failure) (s : State) : State :=
  { s with res := { s.res with status := r.code }, phase := .idle, busy := false }

/-- The step of state DONE, 42_decoder.md R99. -/
def finish (s : State) : State :=
  { s with res := { s.res with status := statusOk, proto := s.cfg.protocolId }, phase := .idle, busy := false }

/-- The registers state RESET clears (42_decoder.md R91). -/
def clearContext (s : State) : State :=
  { s with cursor := 0, acc := 0, nbits := 0, isctrl := false, res := ResultRegs.cleared }

/-- One more payload bit: `CURSOR <- c'; ACC <- {ACC[62:0], b}; NBITS <- NBITS + 1` (42_decoder.md R96, R98). -/
def shiftIn (b : Bool) (c' : Nat) (s : State) : State :=
  { s with cursor := c', acc := (s.acc.setWidth 63).concat b, nbits := s.nbits + 1 }

/-! ### Reset -/

/-- The core's registers in the reset state; TRACE apart (70_reset_and_hazards.md R129, R131). -/
def clearRegisters (s : State) : State :=
  { clearContext s with phase := .idle, busy := false, sending := [], ret := .nothing }

/-- Reset while BUSY = 0, as at power-on (70_reset_and_hazards.md R129; log 17): TRACE empty and the emitter off. DESIGN
CHOICE, unsafe: the emitter is off also where an earlier reset cut a command and nothing was emitted since. R131 leaves the
level unspecified until the next `Emit`, R129 and 10_state.md R31 and R33 say off after reset, and the model follows these
(log 30). DESIGN CHOICE, unsafe: the most recent SEND is forgotten too, so that `CAPTURE g` presents `[g]` until the next one; 30_encoding.md
R70 does not speak of a reset (log 27). -/
def powerOnReset (s : State) : State :=
  { clearRegisters s with trace := [], lastSend := [], levelOpen := none }

/-- Reset asserted during a command (70_reset_and_hazards.md R131): the command ends, the registers are reset, the
pulses already emitted stay, and the emitter's level is a free value until the next `Emit`. DESIGN CHOICE, unsafe:
`lastSend` stays, the pulses a cut SEND had emitted or, where a DECODE was cut, those of the SEND before it (log 27). -/
def cutReset (s : State) : State :=
  { clearRegisters s with levelOpen := some s.freeCount, freeCount := s.freeCount + 1 }

end Sys2Proof.Machine
end

