-- ==== Sys2Proof/Machine/Codec.lean ====
section
/-! DEFINITION. The TimingCodec family of 40_timing_codec.md: MATCH. -/

namespace Sys2Proof.Machine

/-- MATCH (40_timing_codec.md R74): a pure function. It writes no register and no flag; what it answers goes back to
the operation that used it, the model's `ret` (log 6). -/
def execMatch (actual expected : Micros) (s : State) : Host.Outcome State Fault Refusal :=
  .next { s with ret := .matched (withinTolerance s.cfg.timing actual expected) }

end Sys2Proof.Machine
end

