-- ==== Sys2Proof/Machine/Decoder.lean ====
section
/-! DEFINITION. The FrameDecoder family of 42_decoder.md: the state machine, one definition per state, the DECODE
command and GETBIT. -/

namespace Sys2Proof.Machine

/-- State RESET (42_decoder.md R91). -/
def resetRule (s : State) : Except Fault State :=
  .ok { clearContext s with phase := .lengthCheck }

/-- State LENGTH_CHECK (42_decoder.md R92). -/
def lengthCheckRule (s : State) : Except Fault State :=
  if s.capture.length < s.cfg.minCaptureLen then .ok (raiseFail .bufferTooShort s)
  else .ok { s with phase := .headerCheck }

/-- State HEADER_CHECK (42_decoder.md R93). -/
def headerCheckRule (s : State) : Except Fault State :=
  match pairAt s.capture 1 with
  | .error f      => .error f
  | .ok (m, sp) =>
    if isHeader s.cfg.timing m sp then .ok { s with cursor := 3, phase := .discriminate }
    else .ok (raiseFail .headerMismatch s)

/-- State DISCRIMINATE (42_decoder.md R94). -/
def discriminateRule (s : State) : Except Fault State :=
  match pairAt s.capture s.cursor with
  | .error f      => .error f
  | .ok (m, sp) =>
    .ok { s with isctrl := isOne s.cfg.timing m sp
                 phase := if isOne s.cfg.timing m sp then .ctrlRead else .dataRead }

/-- One read of a payload bit, common to CTRL_READ and DATA_READ (42_decoder.md R96, R98). -/
def readBitRule (s : State) : Except Fault State :=
  match getbit s.cfg.timing s.capture s.cursor with
  | .error f      => .error f
  | .ok (b, c') => .ok (shiftIn b c' s)

/-- State CTRL_READ (42_decoder.md R96). -/
def ctrlReadRule (s : State) : Except Fault State :=
  if s.nbits.toNat < s.cfg.ctrlBits then readBitRule s
  else .ok { s with phase := .ctrlCheck }

/-- The success arm of CTRL_CHECK (42_decoder.md R97). -/
def recordControl (b : ControlByte) (s : State) : State :=
  { s with
    res := { s.res with
      kind := kindControl, ctype := (typeField s.cfg.toParams b).setWidth 3, bits := s.nbits, value := b.setWidth 64 }
    phase := .done }

/-- State CTRL_CHECK (42_decoder.md R97). -/
def ctrlCheckRule (s : State) : Except Fault State :=
  match decodeCtrlByte s.cfg.toParams (ctrlPayload s.cfg.toParams s.acc) with
  | .ok _             => .ok (recordControl (ctrlPayload s.cfg.toParams s.acc) s)
  | .error .badPrefix => .ok (raiseFail .prefixMismatch s)
  | .error _          => .ok (raiseFail .typeInvalid s)

/-- The else arm of DATA_READ (42_decoder.md R98). -/
def recordData (s : State) : State :=
  { s with
    res := { s.res with kind := kindData, bits := s.nbits, value := s.acc }
    phase := .done }

/-- State DATA_READ (42_decoder.md R98). -/
def dataReadRule (s : State) : Except Fault State :=
  if s.cursor + 1 < s.capture.length ∧ s.nbits.toNat < s.cfg.maxDataBits then readBitRule s
  else .ok (recordData s)

/-- One step of the decode state machine: the rule of the current PHASE (42_decoder.md R90). -/
def decodeRule (s : State) : Except Fault State :=
  match s.phase with
  | .idle         => .ok s
  | .reset        => resetRule s
  | .lengthCheck  => lengthCheckRule s
  | .headerCheck  => headerCheckRule s
  | .discriminate => discriminateRule s
  | .ctrlRead     => ctrlReadRule s
  | .ctrlCheck    => ctrlCheckRule s
  | .dataRead     => dataReadRule s
  | .done         => .ok (finish s)

/-- "Repeat: take the step … until the command completes" (42_decoder.md R90), for at most `fuel` steps. -/
def decodeRun (fuel : Nat) (s : State) : Except Fault State :=
  match fuel with
  | 0     => .ok s
  | n + 1 =>
    match s.phase with
    | .idle => .ok s
    | _     =>
      match decodeRule s with
      | .error f => .error f
      | .ok s'   => decodeRun n s'

/-- The most steps a DECODE takes, 70 (42_decoder.md R105): `MAX_DATA_BITS` is at most 64. -/
def decodeFuel : Nat := 70

/-- The outcome of a run of the state machine. -/
def ofRun (r : Except Fault State) : Host.Outcome State Fault Refusal :=
  match r with
  | .ok s    => .next s
  | .error f => .fault f

/-- DECODE (42_decoder.md R90), as one step; refused while BUSY = 1 (70_reset_and_hazards.md R133). -/
def execDecode (s : State) : Host.Outcome State Fault Refusal :=
  if s.busy then .refused .commandWhileBusy
  else ofRun (decodeRun decodeFuel (beginDecode s))

/-- GETBIT (42_decoder.md R95): it answers the bit and the next cursor, the model's `ret` (log 6), and writes no
register: "the caller writes CURSOR". -/
def execGetBit (cursor : Nat) (s : State) : Host.Outcome State Fault Refusal :=
  match getbit s.cfg.timing s.capture cursor with
  | .ok (b, c') => .next { s with ret := .gotBit b c' }
  | .error f    => .fault f

end Sys2Proof.Machine
end

