-- ==== Sys2Proof/Machine/ControlByte.lean ====
section
/-! DEFINITION. The control bytes of 30_encoding.md R61. Their meaning as instructions is what the decoder does with the
received byte (30_encoding.md R63): a control frame that carries it is received whole (log 9). -/

namespace Sys2Proof.Machine

/-- The decoder at CTRL_CHECK with the payload of `b` read: RESET has cleared the registers (42_decoder.md R91), the
`CTRL_BITS` reads have left the payload in ACC and the cursor past it, at 19 for the eight reads of R7 (42_decoder.md R96;
10_state.md R18). -/
def atCtrlCheck (b : ControlByte) (s : State) : State :=
  { clearContext (accept s) with
    cursor := 3 + 2 * s.cfg.ctrlBits
    acc := (ctrlPayload s.cfg.toParams b).setWidth 64
    nbits := BitVec.ofNat 7 s.cfg.ctrlBits
    isctrl := true
    phase := .ctrlCheck }

/-- A control frame with payload byte `b` is received: CTRL_CHECK and, on success, DONE (42_decoder.md R97, R99;
30_encoding.md R63). It is the end of a DECODE, so it needs BUSY = 0 as a DECODE does. -/
def receiveControl (b : ControlByte) (s : State) : Host.Outcome State Fault Refusal :=
  if s.busy then .refused .commandWhileBusy
  else ofRun (decodeRun 2 (atCtrlCheck b s))

/-- CTRL Start (30_encoding.md R61). -/
def execCtrlStart (s : State) : Host.Outcome State Fault Refusal :=
  receiveControl (ctrlByte s.cfg.toParams .start) s

/-- CTRL End (30_encoding.md R61). -/
def execCtrlEnd (s : State) : Host.Outcome State Fault Refusal :=
  receiveControl (ctrlByte s.cfg.toParams .endCode) s

/-- CTRL Ack (30_encoding.md R61). -/
def execCtrlAck (s : State) : Host.Outcome State Fault Refusal :=
  receiveControl (ctrlByte s.cfg.toParams .ack) s

/-- CTRL Nack (30_encoding.md R61). -/
def execCtrlNack (s : State) : Host.Outcome State Fault Refusal :=
  receiveControl (ctrlByte s.cfg.toParams .nack) s

end Sys2Proof.Machine
end

