-- ==== Sys2Proof/Machine/Sender.lean ====
section
/-! DEFINITION. The Sender family of 41_sender.md: the internal emissions SENDBIT, SENDHDR, SENDEND and the host
commands SEND_CONTROL and SEND_DATA. -/

namespace Sys2Proof.Machine

/-- SENDBIT (41_sender.md R83). -/
def execSendBit (bit : Bool) (s : State) : Host.Outcome State Fault Refusal :=
  .next (emitAll (bitPulses s.cfg.timing bit) s)

/-- SENDHDR (41_sender.md R84). -/
def execSendHdr (s : State) : Host.Outcome State Fault Refusal :=
  .next (emitAll (headerPulses s.cfg.timing) s)

/-- SENDEND (41_sender.md R85). -/
def execSendEnd (s : State) : Host.Outcome State Fault Refusal :=
  .next (emitAll (endPulses s.cfg.timing) s)

/-- SENDC START (41_sender.md R86). -/
def execSendcStart (s : State) : Host.Outcome State Fault Refusal :=
  sendCommand (controlPulses s.cfg .start) s

/-- SENDC END (41_sender.md R86). -/
def execSendcEnd (s : State) : Host.Outcome State Fault Refusal :=
  sendCommand (controlPulses s.cfg .endCode) s

/-- SENDC ACK (41_sender.md R86). -/
def execSendcAck (s : State) : Host.Outcome State Fault Refusal :=
  sendCommand (controlPulses s.cfg .ack) s

/-- SENDC NACK (41_sender.md R86). -/
def execSendcNack (s : State) : Host.Outcome State Fault Refusal :=
  sendCommand (controlPulses s.cfg .nack) s

/-- SENDD value, count (41_sender.md R87): the silent no-op for a count over 64 is a SEND of no pulses. -/
def execSendd (value : DataValue) (count : BitVec 8) (s : State) : Host.Outcome State Fault Refusal :=
  sendCommand (dataPulses s.cfg value count) s

end Sys2Proof.Machine
end

