-- ==== Sys2Proof/Machine/Wire.lean ====
section
/-! DEFINITION. The wire symbols of 30_encoding.md R54, one mark and one space each. Their meaning as instructions is
that the symbol goes out at the emitter port (log 8). What a received pair is read as is `decodeSymbol` and, inside a
DECODE, the classifiers of Machine/Flags.lean. -/

namespace Sys2Proof.Machine

/-- One wire symbol: its mark, then its space (30_encoding.md R54). -/
def symbolPulses (mark space : Micros) : List Pulse := [.mark mark, .space space]

/-- WIRE HEADER (30_encoding.md R54). -/
def execWireHeader (s : State) : Host.Outcome State Fault Refusal :=
  .next (emitAll (symbolPulses s.cfg.timing.hdrMark s.cfg.timing.hdrSpace) s)

/-- WIRE BIT1 (30_encoding.md R54). -/
def execWireBit1 (s : State) : Host.Outcome State Fault Refusal :=
  .next (emitAll (symbolPulses s.cfg.timing.oneMark s.cfg.timing.oneSpace) s)

/-- WIRE BIT0 (30_encoding.md R54). -/
def execWireBit0 (s : State) : Host.Outcome State Fault Refusal :=
  .next (emitAll (symbolPulses s.cfg.timing.zeroMark s.cfg.timing.zeroSpace) s)

/-- WIRE END (30_encoding.md R54): the space turns the emitter off (20_memory.md R43). -/
def execWireEnd (s : State) : Host.Outcome State Fault Refusal :=
  .next (emitAll (symbolPulses s.cfg.timing.endMark s.cfg.timing.endSpace) s)

end Sys2Proof.Machine
end

