-- ==== Sys2Proof/Machine/Dispatch.lean ====
section
/-! DEFINITION. The one dispatch: each instruction to its meaning. -/

namespace Sys2Proof.Machine

def exec (i : Instr) (s : State) : Host.Outcome State Fault Refusal :=
  match i with
  | .sendcStart => Sys2Proof.Machine.execSendcStart s
  | .sendcEnd => Sys2Proof.Machine.execSendcEnd s
  | .sendcAck => Sys2Proof.Machine.execSendcAck s
  | .sendcNack => Sys2Proof.Machine.execSendcNack s
  | .sendd value count => Sys2Proof.Machine.execSendd value count s
  | .decode => Sys2Proof.Machine.execDecode s
  | .matchOp actual expected => Sys2Proof.Machine.execMatch actual expected s
  | .sendBit bit => Sys2Proof.Machine.execSendBit bit s
  | .sendHdr => Sys2Proof.Machine.execSendHdr s
  | .sendEnd => Sys2Proof.Machine.execSendEnd s
  | .getBit cursor => Sys2Proof.Machine.execGetBit cursor s
  | .wireHeader => Sys2Proof.Machine.execWireHeader s
  | .wireBit1 => Sys2Proof.Machine.execWireBit1 s
  | .wireBit0 => Sys2Proof.Machine.execWireBit0 s
  | .wireEnd => Sys2Proof.Machine.execWireEnd s
  | .ctrlStart => Sys2Proof.Machine.execCtrlStart s
  | .ctrlEnd => Sys2Proof.Machine.execCtrlEnd s
  | .ctrlAck => Sys2Proof.Machine.execCtrlAck s
  | .ctrlNack => Sys2Proof.Machine.execCtrlNack s

end Sys2Proof.Machine
end

