-- ==== Sys2Proof/Machine/Port.lean ====
section
/-! DEFINITION. The ports between commands and during one: presenting a capture, reading the result registers, reset,
and a command that runs one pulse or one rule a step (log 4, log 5). -/

namespace Sys2Proof.Machine

/-! ### Power-on -/

/-- Power-on with a choice of parameters (70_reset_and_hazards.md R132): a choice that breaks a constraint is
refused. The windows of the `Timing` are checked (40_timing_codec.md R80), and the answer stands in the configuration. DESIGN
CHOICE, unsafe: an instance that fails the check runs (log 29). -/
def powerOn (p : Params) : Host.Outcome State Fault Refusal :=
  if h : p.Valid then .next (State.resetWith (Config.ofParams p h)) else .refused .configInvalid

/-! ### The capture port -/

/-- The substrate presents a capture (20_memory.md R34), of at most `CAPTURE_MAX` samples (R35; log 16). -/
def presentCapture (samples : List Micros) (s : State) : Host.Outcome State Fault Refusal :=
  if samples.length ≤ s.cfg.captureMax then .next { s with capture := samples }
  else .refused .captureTooLong

/-! ### The host's reads -/

/-- The six registers with free values in every field, for the read numbered `n` (10_state.md R28; log 12). -/
def freeRegs (c : Config) (n : Nat) : ResultRegs where
  status := Config.freeBits 3 (6 * n)
  kind   := Config.freeBits 1 (6 * n + 1)
  ctype  := Config.freeBits 3 (6 * n + 2)
  bits   := Config.freeBits 7 (6 * n + 3)
  value  := Config.freeBits 64 (6 * n + 4)
  proto  := (Config.freeBits c.protoW (6 * n + 5)).toNat

/-- The host reads BUSY and the result registers: the stored values, but free values while a DECODE is in progress
(10_state.md R28; 93_implementation_defined.md, row 5; log 12). DESIGN CHOICE, unsafe: a read during a SEND returns the
stored values. R28 and row 5 leave open only the reads during a DECODE, 92_eei_decisions.md D25 every read while BUSY = 1
(log 25). -/
def readResults (s : State) : State :=
  match s.busy, s.phase with
  | true, .idle => { s with hostRead := some ⟨s.busy, s.res⟩ }
  | true, _     => { s with hostRead := some ⟨s.busy, freeRegs s.cfg s.freeCount⟩, freeCount := s.freeCount + 1 }
  | false, _    => { s with hostRead := some ⟨s.busy, s.res⟩ }

/-! ### Commands run stepwise -/

/-- The refusal of a word that names no command (30_encoding.md R67). -/
def refusalOf (e : DecodeError) : Refusal :=
  match e with
  | .reservedOp      => .reservedOp
  | .reservedCtype t => .reservedCtype t
  | .badPrefix       => .reservedOp
  | .badType         => .reservedOp
  | .noSymbol        => .reservedOp

/-- A command is accepted, to run stepwise (41_sender.md R82; 42_decoder.md R90). -/
def beginCommand (c : Command) (s : State) : State :=
  match c with
  | .sendControl code => beginSend (controlPulses s.cfg code) s
  | .sendData v n     => beginSend (dataPulses s.cfg v n) s
  | .decode           => beginDecode s

/-- The host presents a word while BUSY = 0, to run stepwise. -/
def presentWord (w : CommandWord) (s : State) : Host.Outcome State Fault Refusal :=
  match decodeCommand w with
  | .ok c    => .next (beginCommand c s)
  | .error e => .refused (refusalOf e)

/-- One step of the command in progress: a rule of the state machine, or a pulse of the SEND. -/
def commandRule (s : State) : Host.Outcome State Fault Refusal :=
  match s.phase with
  | .idle => .next (sendRule s)
  | _     => ofRun (decodeRule s)

/-- A capture presented while BUSY = 1: refused during a DECODE (70_reset_and_hazards.md R134), allowed during a SEND
(R136; log 21). -/
def captureWhileBusy (samples : List Micros) (s : State) : Host.Outcome State Fault Refusal :=
  match s.phase with
  | .idle => presentCapture samples s
  | _     => .refused .captureChanged

/-- A step while BUSY = 1: the command in progress goes on unless the outside does something. -/
def busyStep (s : State) : Host.Outcome State Fault Refusal :=
  match s.inputs with
  | []           => commandRule s
  | i :: rest =>
    match i with
    | .quiet         => commandRule { s with inputs := rest }
    | .command _     => .refused .commandWhileBusy
    | .present _     => .refused .commandWhileBusy
    | .ctrlByte _    => .refused .commandWhileBusy
    | .captureRaw xs => captureWhileBusy xs { s with inputs := rest }
    | .captureRef g  => captureWhileBusy (captureOf s.lastSend g) { s with inputs := rest }
    | .readResults   => .next (readResults { s with inputs := rest })
    | .reset         => .next (cutReset { s with inputs := rest })

end Sys2Proof.Machine
end

