-- ==== Sys2Proof/Machine/Fetch.lean ====
section
/-! DEFINITION. Where the step finds its next instruction. The core fetches nothing (20_memory.md R52): the host presents
a command word at the command port, and the model reads it from the front of `inputs` (log 5). -/

namespace Sys2Proof.Machine

/-- A presented command word: the command it selects runs, or the word is refused (30_encoding.md R67). -/
def runWord (w : CommandWord) (s : State) : Host.Outcome State Fault Refusal :=
  match decode w with
  | .ok i    => exec i s
  | .error e => .refused (refusalOf e)

/-- A received control byte (30_encoding.md R63): the row's meaning if it names a control code, else the failure that
CTRL_CHECK raises. -/
def runCtrlByte (b : ControlByte) (s : State) : Host.Outcome State Fault Refusal :=
  match decodeCtrlByte s.cfg.toParams b with
  | .ok code => exec (Instr.ofControlCode code) s
  | .error _ => receiveControl b s

/-- A step while BUSY = 0: what the outside presents, or nothing (60_exceptions.md R128; log 22). -/
def idleStep (s : State) : Host.Outcome State Fault Refusal :=
  match s.inputs with
  | []           => .next s
  | i :: rest =>
    match i with
    | .quiet         => .next { s with inputs := rest }
    | .command w     => runWord w { s with inputs := rest }
    | .present w     => presentWord w { s with inputs := rest }
    | .ctrlByte b    => runCtrlByte b { s with inputs := rest }
    | .captureRaw xs => presentCapture xs { s with inputs := rest }
    | .captureRef g  => presentCapture (captureOf s.lastSend g) { s with inputs := rest }
    | .readResults   => .next (readResults { s with inputs := rest })
    | .reset         => .next (powerOnReset { s with inputs := rest })

/-- The input that presents a table row's bits (30_encoding.md R65; log 10). -/
def tableInput (nbits w : Nat) : Input :=
  match tableEncoding nbits w with
  | .command cw => .command cw
  | .byte b     => .ctrlByte b
  | .symbol _ _ => .quiet

end Sys2Proof.Machine
end

