-- ==== Sys2Proof/Machine/Step.lean ====
section
/-! DEFINITION. One step of the machine. -/

namespace Sys2Proof.Machine

/-- One step: the command in progress, or what the outside presents. -/
def step (s : State) : Host.Outcome State Fault Refusal :=
  if s.busy then busyStep s else idleStep s

/-- `s` with a table row's bits presented next, before anything else the outside does. -/
def State.withFetchWord (s : State) (nbits w : Nat) : State :=
  { s with inputs := tableInput nbits w :: s.inputs }

end Sys2Proof.Machine
end

