-- ==== Sys2Proof/Machine/ClosedForm.lean ====
section
/-! DEFINITION. The closed functional form of DECODE (42_decoder.md R101), written apart from the state machine. -/

namespace Sys2Proof.Machine

/-- `bit(c)` of 42_decoder.md R101. -/
def bitAt (t : Timing) (capture : List Micros) (c : Nat) : Bool :=
  decide (c + 1 < capture.length) && isOne t (capture.getD c 0) (capture.getD (c + 1) 0)

/-- `sum_{k = 0..n-1} bit(3 + 2k) << (n - 1 - k)` of 42_decoder.md R101. -/
def bitSum (t : Timing) (capture : List Micros) (n : Nat) : Nat :=
  ((List.range n).map fun k => (bitAt t capture (3 + 2 * k)).toNat <<< (n - 1 - k)).sum

/-- The capture opens with a header: samples 1 and 2 (42_decoder.md R93). -/
def hasHeader (t : Timing) (capture : List Micros) : Bool :=
  isHeader t (capture.getD 1 0) (capture.getD 2 0)

/-- The first payload pair is a Logical 1: the frame is a control frame (42_decoder.md R94). -/
def isControlFrame (t : Timing) (capture : List Micros) : Bool :=
  isOne t (capture.getD 3 0) (capture.getD 4 0)

/-- `B`, the control payload a control-path decode reads (42_decoder.md R101), a number of `CTRL_BITS` bits. -/
def receivedByte (c : Config) (capture : List Micros) : Nat := bitSum c.timing capture c.ctrlBits

/-- `B[7:3]`, its bits above the type field (42_decoder.md R101). -/
def receivedPrefix (c : Config) (capture : List Micros) : Nat := receivedByte c capture / 2 ^ c.ctrlTypeBits

/-- `B[2:0]`, its type field (42_decoder.md R101). -/
def receivedType (c : Config) (capture : List Micros) : Nat := receivedByte c capture % 2 ^ c.ctrlTypeBits

/-- `n = min(64, (L - 3) div 2)`, the bits a data-path decode reads (42_decoder.md R102), 64 being `MAX_DATA_BITS`. -/
def dataCount (c : Config) (capture : List Micros) : Nat := min c.maxDataBits ((capture.length - 3) / 2)

/-- How a DECODE of a capture ends: one outcome of 42_decoder.md R90. -/
inductive DecodeResult where
  | failed (r : Failure)
  | control (type b : Nat)
  | data (n v : Nat)
  deriving DecidableEq, Repr

/-- `decode(L, Sample)` of 42_decoder.md R101, the constants of 00_scope.md R7 in place of their numbers. -/
def decodeResult (c : Config) (capture : List Micros) : DecodeResult :=
  if capture.length < c.minCaptureLen then .failed .bufferTooShort
  else if ¬ hasHeader c.timing capture then .failed .headerMismatch
  else if isControlFrame c.timing capture then
    if receivedPrefix c capture ≠ c.ctrlPrefix.toNat then .failed .prefixMismatch
    else if receivedType c capture ∉ [1, 2, 3, 4] then .failed .typeInvalid
    else .control (receivedType c capture) (receivedByte c capture)
  else .data (dataCount c capture) (bitSum c.timing capture (dataCount c capture))

/-- The result registers of an outcome: 42_decoder.md R100 on success, 60_exceptions.md R114 on failure. -/
def resultRegs (c : Config) (r : DecodeResult) : ResultRegs :=
  match r with
  | .failed f      => { ResultRegs.cleared with status := f.code }
  | .control ty b  => ⟨1, 1, BitVec.ofNat 3 ty, BitVec.ofNat 7 c.ctrlBits, BitVec.ofNat 64 b, c.protocolId⟩
  | .data n v      => ⟨1, 0, 0, BitVec.ofNat 7 n, BitVec.ofNat 64 v, c.protocolId⟩

/-- The bits a DECODE reads into ACC: none before the header has passed, `CTRL_BITS` on the control path
(42_decoder.md R96), `dataCount` on the data path (R102). -/
def bitsRead (c : Config) (capture : List Micros) : Nat :=
  if capture.length < c.minCaptureLen ∨ ¬ hasHeader c.timing capture then 0
  else if isControlFrame c.timing capture then c.ctrlBits
  else dataCount c capture

/-- The sample indices a DECODE reads (20_memory.md R37): none below `MIN_CAPTURE_LEN` samples; 1 and 2; then, if the header
matches, 3 and 4 and every complete pair among the bits read. -/
def readIndices (c : Config) (capture : List Micros) : List Nat :=
  if capture.length < c.minCaptureLen then []
  else
    [1, 2] ++ ((List.range (bitsRead c capture)).flatMap fun k => [3 + 2 * k, 4 + 2 * k]).filter
      fun i => decide (3 + 2 * ((i - 3) / 2) + 1 < capture.length)

/-- The whole state a DECODE leaves: the outcome in the result registers, the hidden context as the last step left it
(60_exceptions.md R114; 95_test_vectors.md section 2.6), PHASE and BUSY back at rest, everything else as it was. -/
def decodedState (s : State) : State :=
  { s with
    cursor := if bitsRead s.cfg s.capture = 0 then 0 else 3 + 2 * bitsRead s.cfg s.capture
    acc := BitVec.ofNat 64 (bitSum s.cfg.timing s.capture (bitsRead s.cfg s.capture))
    nbits := BitVec.ofNat 7 (bitsRead s.cfg s.capture)
    isctrl := decide (bitsRead s.cfg s.capture ≠ 0) && isControlFrame s.cfg.timing s.capture
    res := resultRegs s.cfg (decodeResult s.cfg s.capture)
    phase := .idle
    busy := false }

end Sys2Proof.Machine
end

