-- ==== Sys2Proof/Safety.lean ====
section
/-! DEFINITION. What a sound state is, in the terms the statements use: the invariant every step keeps. -/

namespace Sys2Proof.Machine

/-- The registers hold one DecodedMessage, status and protocol identifier apart (42_decoder.md R100, R102; 10_state.md
R23 to R26): a control code with its byte, or a data frame whose top bit is 0. -/
def MessageRecorded (c : Config) (r : ResultRegs) : Prop :=
  (r.kind = kindControl ∧
    ∃ code : ControlCode, r.ctype = code.type ∧ r.bits = BitVec.ofNat 7 c.ctrlBits ∧
      r.value = (ctrlByte c.toParams code).setWidth 64) ∨
  (r.kind = kindData ∧ r.ctype = 0 ∧ 1 ≤ r.bits.toNat ∧ r.bits.toNat ≤ c.maxDataBits ∧
    r.value.toNat < 2 ^ (r.bits.toNat - 1))

/-- The result registers between commands (10_state.md R22 to R27; 60_exceptions.md R114): NONE or a failure code with
all else 0, or OK with one message and the protocol identifier. Codes 6 and 7 do not occur. -/
def ResultsAtRest (c : Config) (r : ResultRegs) : Prop :=
  (r.status.toNat ≤ 5 ∧ r.status ≠ statusOk ∧ r = { ResultRegs.cleared with status := r.status }) ∨
  (r.status = statusOk ∧ r.proto = c.protocolId ∧ MessageRecorded c r)

/-- The context and the result registers in each phase (42_decoder.md R91 to R99). -/
def PhaseSound (s : State) : Prop :=
  match s.phase with
  | .idle         => ResultsAtRest s.cfg s.res
  | .reset        => ResultsAtRest s.cfg s.res
  | .lengthCheck  => s.res = ResultRegs.cleared ∧ s.cursor = 0 ∧ s.nbits = 0 ∧ s.isctrl = false
  | .headerCheck  => s.res = ResultRegs.cleared ∧ s.cursor = 0 ∧ s.nbits = 0 ∧ s.isctrl = false ∧
      s.cfg.minCaptureLen ≤ s.capture.length
  | .discriminate => s.res = ResultRegs.cleared ∧ s.cursor = 3 ∧ s.nbits = 0 ∧ s.isctrl = false ∧
      s.cfg.minCaptureLen ≤ s.capture.length
  | .ctrlRead     => s.res = ResultRegs.cleared ∧ s.cursor = 3 + 2 * s.nbits.toNat ∧ s.nbits.toNat ≤ s.cfg.ctrlBits ∧
      s.isctrl = true ∧ s.cfg.minCaptureLen ≤ s.capture.length
  | .ctrlCheck    => s.res = ResultRegs.cleared ∧ s.cursor = 3 + 2 * s.cfg.ctrlBits ∧
      s.nbits = BitVec.ofNat 7 s.cfg.ctrlBits ∧ s.isctrl = true ∧ s.cfg.minCaptureLen ≤ s.capture.length
  | .dataRead     => s.res = ResultRegs.cleared ∧ s.cursor = 3 + 2 * s.nbits.toNat ∧ s.cursor ≤ s.capture.length ∧
      s.nbits.toNat ≤ s.cfg.maxDataBits ∧ s.isctrl = false ∧ s.cfg.minCaptureLen ≤ s.capture.length ∧
      bitAt s.cfg.timing s.capture 3 = false ∧ s.acc.toNat < 2 ^ (s.nbits.toNat - 1)
  | .done         => s.res.status = statusNone ∧ s.res.proto = 0 ∧ MessageRecorded s.cfg s.res

/-- A sound state: what reset leaves and every step keeps. -/
structure Consistent (s : State) : Prop where
  /-- BUSY = 0 is the idle core: no DECODE and no SEND in progress (10_state.md R17, R29). -/
  idle_when_free : s.busy = false → s.phase = .idle ∧ s.sending = []
  /-- A DECODE in progress excludes a SEND in progress: one command at a time (70_reset_and_hazards.md R133). -/
  one_command : s.phase ≠ .idle → s.sending = []
  /-- The capture port presents at most `CAPTURE_MAX` samples (20_memory.md R35). -/
  capture_fits : s.capture.length ≤ s.cfg.captureMax
  /-- No more bits are read than a data value has, at most 64 (10_state.md R20; 00_scope.md R7). -/
  nbits_le : s.nbits.toNat ≤ s.cfg.wValue
  /-- ACC holds the bits read, right-aligned (10_state.md R19). -/
  acc_lt : s.acc.toNat < 2 ^ s.nbits.toNat
  /-- The registers fit the phase. -/
  phase_sound : PhaseSound s
  /-- What a SEND has emitted and has still to emit ends with the emitter off (60_exceptions.md R128), where no reset has
  cut a command since the last pulse (70_reset_and_hazards.md R131). -/
  ends_off : s.levelOpen = none ∨ s.sending ≠ [] → ∀ d, (s.trace ++ s.sending).getLast? ≠ some (.mark d)

/-- What an emission leaves as it was: every field but TRACE and the model's own `lastSend` and `levelOpen` (log 1). -/
def EmissionFrame (s t : State) : Prop :=
  { t with trace := s.trace, lastSend := s.lastSend, levelOpen := s.levelOpen } = s

/-- How many pulses or rules a command takes at most, plus one for the completion of a SEND (41_sender.md R82;
42_decoder.md R105). -/
def commandBound (c : Config) (cmd : Command) : Nat :=
  match cmd with
  | .sendControl code => (controlPulses c code).length + 1
  | .sendData v n     => (dataPulses c v n).length + 1
  | .decode           => decodeFuel

/-- The steps a DECODE takes, as 42_decoder.md R105 counts them, its 8 being `CTRL_BITS`. -/
def decodeSteps (c : Config) (capture : List Micros) : Nat :=
  match decodeResult c capture with
  | .failed .bufferTooShort => 2
  | .failed .headerMismatch => 3
  | .failed .prefixMismatch => 4 + c.ctrlBits + 1 + 1
  | .failed .typeInvalid    => 4 + c.ctrlBits + 1 + 1
  | .control _ _            => 4 + c.ctrlBits + 1 + 1 + 1
  | .data n _               => 4 + n + 1 + 1

end Sys2Proof.Machine
end

