-- ==== Sys2Proof/Certificates/Slice0/Obligations.lean ====
section
/-! DEFINITION. The statements for the provers. They state the numbered rules of spec/ and the machine's own
invariants; a docstring names the log entry where a clause is the model's choice. -/

open Sys2Proof Sys2Proof.Machine

/-! ### Reset and configuration -/

/-- 10_state.md R33, 70_reset_and_hazards.md R129, 42_decoder.md R91: the power-on values of every register of the core, with
the emitter off; and state RESET writes the same values to every register but PHASE, BUSY and TRACE. -/
def Obligations.PowerOnAndResetStepLeaveTheSameValues : Prop :=
  (∀ c : Config, State.resetWith c = { State.resetWith c with
      phase := .idle, cursor := 0, acc := 0, nbits := 0, isctrl := false, res := ⟨0, 0, 0, 0, 0, 0⟩, busy := false
      trace := [] } ∧
    emitterOn (State.resetWith c) = false) ∧
  State.reset = State.resetWith Config.normative ∧
  ∀ s : State, s.phase = .reset → decodeRule s = .ok { s with
    cursor := 0, acc := 0, nbits := 0, isctrl := false, res := ⟨0, 0, 0, 0, 0, 0⟩, phase := .lengthCheck }

/-- 70_reset_and_hazards.md R131: a reset asserted during a command ends it, clears the registers, keeps the pulses
already emitted and leaves the emitter's level a free value, whatever it is, until the next `Emit`. That a reset while
BUSY = 0 is a power-on reset, and that both keep the capture and what waits outside, is the model's choice (log 17); so is
that it turns the emitter off where an earlier reset left the level open (log 30). -/
def Obligations.ResetEndsACommandAndOpensTheLevel : Prop :=
  ∀ (s : State) (rest : List Input), s.inputs = .reset :: rest →
    (s.busy = true → ∃ t, step s = .next t ∧
      t.phase = .idle ∧ t.busy = false ∧ t.sending = [] ∧ t.cursor = 0 ∧ t.acc = 0 ∧ t.nbits = 0 ∧ t.isctrl = false ∧
      t.res = ⟨0, 0, 0, 0, 0, 0⟩ ∧ t.trace = s.trace ∧ t.capture = s.capture ∧ t.cfg = s.cfg ∧ t.inputs = rest ∧
      emitterOn t = Config.freeLevel s.freeCount ∧
      (∀ d, emitterOn (emit (.mark d) t) = true) ∧ ∀ d, emitterOn (emit (.space d) t) = false) ∧
    (s.busy = false → ∃ t, step s = .next t ∧
      t.phase = .idle ∧ t.busy = false ∧ t.sending = [] ∧ t.cursor = 0 ∧ t.acc = 0 ∧ t.nbits = 0 ∧ t.isctrl = false ∧
      t.res = ⟨0, 0, 0, 0, 0, 0⟩ ∧ t.trace = [] ∧ t.capture = s.capture ∧ t.cfg = s.cfg ∧ t.inputs = rest ∧
      emitterOn t = false)

/-- 70_reset_and_hazards.md R132, 00_scope.md R8: power-on with any set of constants that the registers hold and that meets
every constraint gives the reset state under it, R7's set among them; a prefix whose top bit is 0 (30_encoding.md R62), a
zero `PROTOCOL_ID`, a sample port too narrow or wrapping (20_memory.md R39) or a cursor too narrow (10_state.md R18) is
refused. Four clauses are the model's choice: which constants the registers hold (log 3), that any `Timing` is taken,
overlapping windows included (log 29), that any `CAPTURE_MAX` is taken (log 31), and that constants the registers do not hold
are refused (log 3). -/
def Obligations.PowerOnRefusesAnInvalidConfiguration : Prop :=
  (∀ p : Params, p.CountsOfR7 → p.CountsFit) ∧
  ∀ p : Params,
    (p.CountsFit → p.ctrlPrefix.getLsbD (p.ctrlPrefixBits - 1) = true → p.protocolId ≠ 0 → p.protocolId < 2 ^ p.protoW →
      11250 < 2 ^ p.sampleW - 1 → p.portSaturates = true → 19 < 2 ^ p.cursorW → p.captureMax < 2 ^ p.cursorW →
      ∃ c : Config, c.toParams = p ∧ powerOn p = .next (State.resetWith c)) ∧
    (p.ctrlPrefix.getLsbD (p.ctrlPrefixBits - 1) = false → powerOn p = .refused .configInvalid) ∧
    (p.protocolId = 0 → powerOn p = .refused .configInvalid) ∧
    (2 ^ p.sampleW - 1 ≤ 11250 → powerOn p = .refused .configInvalid) ∧
    (p.portSaturates = false → powerOn p = .refused .configInvalid) ∧
    (2 ^ p.cursorW ≤ max 19 p.captureMax → powerOn p = .refused .configInvalid) ∧
    (¬ p.CountsFit → powerOn p = .refused .configInvalid)

/-! ### The matcher -/

/-- 40_timing_codec.md R74: MATCH is the exact integer form, over the integers; its corner cases and its examples; it has
no encoding, and it writes no register. -/
def Obligations.MatchIsTheExactTolerance : Prop :=
  (∀ (t : Timing) (a e : Micros),
    withinTolerance t a e = true ↔ (t.tolDen : Int) * |(a : Int) - (e : Int)| ≤ (t.tolNum : Int) * (e : Int)) ∧
  (∀ (t : Timing) (e : Micros), withinTolerance t e e = true) ∧
  (∀ a : Micros, withinTolerance Timing.normative a 0 = true ↔ a = 0) ∧
  (∀ e : Micros, 0 < e → withinTolerance Timing.normative 0 e = false) ∧
  withinTolerance Timing.normative 700 560 = true ∧ withinTolerance Timing.normative 701 560 = false ∧
  (∀ (c : Config) (a e : Micros), encode c (.matchOp a e) = none) ∧
  ∀ (a e : Micros) (s : State), ∃ t, exec (.matchOp a e) s = .next t ∧ { t with ret := s.ret } = s

/-- MATCH completes and answers the tolerant comparison (40_timing_codec.md R74); that the answer stands in `ret` is the
model's choice (log 6). -/
def Obligations.MatchAnswersInRet : Prop :=
  ∀ (a e : Micros) (s : State),
    exec (.matchOp a e) s = .next { s with
      ret := .matched (decide ((s.cfg.timing.tolDen : Int) * |(a : Int) - (e : Int)| ≤ (s.cfg.timing.tolNum : Int) * (e : Int))) }

/-- 40_timing_codec.md R77, with the window of R76: for a fixed expected value the actual values that match at the normative
tolerance are a closed interval, and 420 and 700 pass for 560 where 419 and 701 fail. -/
def Obligations.MatchWindowIsAClosedInterval : Prop :=
  (∀ (t : Timing) (a e : Micros), t.tolNum = 1 → t.tolDen = 4 →
    (withinTolerance t a e = true ↔ e - e / 4 ≤ a ∧ a ≤ e + e / 4)) ∧
  withinTolerance Timing.normative 560 560 = true ∧
  withinTolerance Timing.normative 420 560 = true ∧ withinTolerance Timing.normative 700 560 = true ∧
  withinTolerance Timing.normative 419 560 = false ∧ withinTolerance Timing.normative 701 560 = false

/-- 40_timing_codec.md R78: the match windows of the normative instance. -/
def Obligations.NormativeMatchWindows : Prop :=
  ∀ a : Micros,
    (withinTolerance Timing.normative a Timing.normative.hdrMark = true ↔ 6750 ≤ a ∧ a ≤ 11250) ∧
    (withinTolerance Timing.normative a Timing.normative.hdrSpace = true ↔ 3375 ≤ a ∧ a ≤ 5625) ∧
    (withinTolerance Timing.normative a Timing.normative.oneMark = true ↔ 420 ≤ a ∧ a ≤ 700) ∧
    (withinTolerance Timing.normative a Timing.normative.zeroMark = true ↔ 420 ≤ a ∧ a ≤ 700) ∧
    (withinTolerance Timing.normative a Timing.normative.oneSpace = true ↔ 1268 ≤ a ∧ a ≤ 2112) ∧
    (withinTolerance Timing.normative a Timing.normative.zeroSpace = true ↔ 420 ≤ a ∧ a ≤ 700) ∧
    (withinTolerance Timing.normative a Timing.normative.minGap = true ↔ 18750 ≤ a ∧ a ≤ 31250)

/-- 40_timing_codec.md R80: under the normative instance no pair is classified two ways; the check that a configuration
carries is the exact test of this property for whatever `Timing` it was built with; under any instance GETBIT tests Logical 1
first, so a pair in both windows reads as 1. -/
def Obligations.NoPairIsClassifiedTwoWays : Prop :=
  (∀ m s : Micros,
    ¬ (isOne Timing.normative m s = true ∧ isZero Timing.normative m s = true) ∧
    ¬ (isHeader Timing.normative m s = true ∧ isOne Timing.normative m s = true) ∧
    ¬ (isHeader Timing.normative m s = true ∧ isZero Timing.normative m s = true)) ∧
  (∀ c : Config, c.timing = Timing.normative → c.windowsApart = true) ∧
  (∀ c : Config, c.windowsApart = true ↔ ∀ m s : Micros,
    ¬ (isOne c.timing m s = true ∧ isZero c.timing m s = true) ∧
    ¬ (isHeader c.timing m s = true ∧ isOne c.timing m s = true) ∧
    ¬ (isHeader c.timing m s = true ∧ isZero c.timing m s = true)) ∧
  ∀ (t : Timing) (m s : Micros) (before after : List Micros), isOne t m s = true →
    getbit t (before ++ m :: s :: after) before.length = .ok (true, before.length + 2)

/-- 20_memory.md R39: a valid sample port saturates above every window, so a DECODE of the saturated capture gives the
same result as one of the true durations. -/
def Obligations.SaturatedCaptureDecodesTheSame : Prop :=
  ∀ s : State, s.busy = false → s.cfg.timing = Timing.normative →
    ∃ t, exec .decode s = .next t ∧
      exec .decode { s with capture := s.capture.map (min · (2 ^ s.cfg.sampleW - 1)) } =
        .next { t with capture := s.capture.map (min · (2 ^ s.cfg.sampleW - 1)) }

/-! ### Emission -/

/-- 41_sender.md R83: SENDBIT appends a mark and a space, 560 and 1690 for a 1, 560 and 560 for a 0, and writes nothing
else. -/
def Obligations.SendBitAppendsOnePair : Prop :=
  (∀ (b : Bool) (s : State), ∃ t, exec (.sendBit b) s = .next t ∧ EmissionFrame s t ∧ t.lastSend = s.lastSend ∧
    t.trace = s.trace ++ [.mark (if b then s.cfg.timing.oneMark else s.cfg.timing.zeroMark),
      .space (if b then s.cfg.timing.oneSpace else s.cfg.timing.zeroSpace)] ∧
    (s.cfg.timing = Timing.normative → b = true → t.trace = s.trace ++ [.mark 560, .space 1690]) ∧
    (s.cfg.timing = Timing.normative → b = false → t.trace = s.trace ++ [.mark 560, .space 560])) ∧
  ∀ (c : Config) (b : Bool), encode c (.sendBit b) = none

/-- 41_sender.md R84: SENDHDR appends the header's mark and space and writes nothing else. -/
def Obligations.SendHdrAppendsTheHeader : Prop :=
  (∀ s : State, ∃ t, exec .sendHdr s = .next t ∧ EmissionFrame s t ∧ t.lastSend = s.lastSend ∧
    t.trace = s.trace ++ [.mark s.cfg.timing.hdrMark, .space s.cfg.timing.hdrSpace] ∧
    (s.cfg.timing = Timing.normative → t.trace = s.trace ++ [.mark 9000, .space 4500])) ∧
  ∀ c : Config, encode c .sendHdr = none

/-- 41_sender.md R85: SENDEND appends the end mark and its space, in the normative instance `Mark(560)` and `Space(0)`, and
the emitter is off afterwards. -/
def Obligations.SendEndTurnsTheEmitterOff : Prop :=
  (∀ s : State, ∃ t, exec .sendEnd s = .next t ∧ emitterOn t = false ∧ EmissionFrame s t ∧ t.lastSend = s.lastSend ∧
    t.trace = s.trace ++ [.mark s.cfg.timing.endMark, .space s.cfg.timing.endSpace] ∧
    (s.cfg.timing = Timing.normative → t.trace = s.trace ++ [.mark 560, .space 0])) ∧
  ∀ c : Config, encode c .sendEnd = none

/-- The four wire symbols of 30_encoding.md R54, as instructions, put their mark and space on the wire. That a symbol's
meaning is its emission is the model's choice (log 8). -/
def Obligations.WireSymbolsGoOut : Prop :=
  ∀ s : State,
    exec .wireHeader s = .next { s with
      trace := s.trace ++ [.mark s.cfg.timing.hdrMark, .space s.cfg.timing.hdrSpace], levelOpen := none } ∧
    exec .wireBit1 s = .next { s with
      trace := s.trace ++ [.mark s.cfg.timing.oneMark, .space s.cfg.timing.oneSpace], levelOpen := none } ∧
    exec .wireBit0 s = .next { s with
      trace := s.trace ++ [.mark s.cfg.timing.zeroMark, .space s.cfg.timing.zeroSpace], levelOpen := none } ∧
    exec .wireEnd s = .next { s with
      trace := s.trace ++ [.mark s.cfg.timing.endMark, .space s.cfg.timing.endSpace], levelOpen := none }

/-- 41_sender.md R86: SEND_CONTROL, of every code, appends the header, the bits of `ctrl_byte(code)` from the top one down
and the end marker, and changes no result register and no decoder register; the first bit is 1; with R7's constants the
bits are the eight of `{CTRL_PREFIX[4:0], code[2:0]}` and the pulses 20; `CTYPE` 0, 5, 6 and 7 are refused; and the Ack
example. -/
def Obligations.SendControlEmitsTheControlFrame : Prop :=
  (∀ (code : ControlCode) (s : State), s.busy = false → ∃ t, exec (Instr.ofSendControl code) s = .next t ∧
    EmissionFrame s t ∧ t.trace = s.trace ++ controlPulses s.cfg code) ∧
  (∀ (code : ControlCode) (c : Config),
    controlPulses c code = [.mark c.timing.hdrMark, .space c.timing.hdrSpace] ++
      ((List.range c.ctrlBits).flatMap fun k =>
        [.mark (if (ctrlByte c.toParams code).getLsbD (c.ctrlBits - 1 - k) then c.timing.oneMark else c.timing.zeroMark),
          .space (if (ctrlByte c.toParams code).getLsbD (c.ctrlBits - 1 - k) then c.timing.oneSpace
            else c.timing.zeroSpace)]) ++
      [.mark c.timing.endMark, .space c.timing.endSpace] ∧
    (controlPulses c code).length = 2 * c.ctrlBits + 4 ∧ (ctrlByte c.toParams code).getLsbD (c.ctrlBits - 1) = true) ∧
  (∀ (code : ControlCode) (c : Config), c.CountsOfR7 →
    controlPulses c code = [.mark c.timing.hdrMark, .space c.timing.hdrSpace] ++
      ([7, 6, 5, 4, 3, 2, 1, 0].flatMap fun i =>
        [.mark (if (c.ctrlPrefix ++ code.type : BitVec 8).getLsbD i then c.timing.oneMark else c.timing.zeroMark),
          .space (if (c.ctrlPrefix ++ code.type : BitVec 8).getLsbD i then c.timing.oneSpace else c.timing.zeroSpace)]) ++
      [.mark c.timing.endMark, .space c.timing.endSpace] ∧
    (controlPulses c code).length = 20 ∧ (c.ctrlPrefix ++ code.type : BitVec 8).getLsbD 7 = true) ∧
  (∀ w : CommandWord, w.extractLsb' 0 2 = 0b01 →
    (∀ code : ControlCode, w.extractLsb' 2 3 = code.type → decode w = .ok (Instr.ofSendControl code)) ∧
    (w.extractLsb' 2 3 ∈ [0#3, 5#3, 6#3, 7#3] → decode w = .error (.reservedCtype (w.extractLsb' 2 3)))) ∧
  ∀ c : Config, c.timing = Timing.normative → c.CountsOfR7 → c.ctrlPrefix = 0b10100 →
    controlPulses c .ack = [.mark 9000, .space 4500, .mark 560, .space 1690, .mark 560, .space 560, .mark 560,
      .space 1690, .mark 560, .space 560, .mark 560, .space 560, .mark 560, .space 560, .mark 560, .space 1690, .mark 560,
      .space 1690, .mark 560, .space 0]

/-- 41_sender.md R87: SEND_DATA of at most `MAX_DATA_BITS` bits, 64 with R7's constants, appends the header, the low
`bitCount` bits of the value, most significant first, and the end marker, `2 * bitCount + 4` pulses; of more bits it emits
nothing and still completes. It changes no result register and no decoder register. -/
def Obligations.SendDataEmitsTheSelectedBits : Prop :=
  (∀ (v : DataValue) (n : BitVec 8) (s : State), s.busy = false → ∃ t, exec (.sendd v n) s = .next t ∧
    EmissionFrame s t ∧
    (n.toNat ≤ s.cfg.maxDataBits → t.trace = s.trace ++ dataPulses s.cfg v n) ∧
    (s.cfg.maxDataBits < n.toNat → t.trace = s.trace) ∧ (s.cfg.CountsOfR7 → s.cfg.maxDataBits = 64)) ∧
  (∀ (v : DataValue) (n : BitVec 8) (c : Config), n.toNat ≤ c.maxDataBits →
    dataPulses c v n = [.mark c.timing.hdrMark, .space c.timing.hdrSpace] ++
      ((List.range n.toNat).flatMap fun k =>
        [.mark (if v.getLsbD (n.toNat - 1 - k) then c.timing.oneMark else c.timing.zeroMark),
          .space (if v.getLsbD (n.toNat - 1 - k) then c.timing.oneSpace else c.timing.zeroSpace)]) ++
      [.mark c.timing.endMark, .space c.timing.endSpace] ∧
    (dataPulses c v n).length = 2 * n.toNat + 4) ∧
  (∀ w : CommandWord, w.extractLsb' 0 2 = 0b10 → decode w = .ok (.sendd (w.extractLsb' 16 64) (w.extractLsb' 8 8))) ∧
  ∀ c : Config, c.timing = Timing.normative → c.CountsOfR7 →
    dataPulses c 0xB 4 = [.mark 9000, .space 4500, .mark 560, .space 1690, .mark 560, .space 560, .mark 560, .space 1690,
      .mark 560, .space 1690, .mark 560, .space 0] ∧
    dataPulses c 0 0 = [.mark 9000, .space 4500, .mark 560, .space 0]

/-- 41_sender.md R88: every non-empty pulse sequence of a SEND begins with the header, ends with the end marker, alternates
mark and space from a mark, and has even length; in the normative instance it holds one header mark and one final
`Space(0)`. -/
def Obligations.EverySentFrameIsBracketedAndAlternates : Prop :=
  ∀ (c : Config) (ps : List Pulse), ps ≠ [] →
    ((∃ code, ps = controlPulses c code) ∨ ∃ v n, ps = dataPulses c v n) →
    ps.take 2 = [.mark c.timing.hdrMark, .space c.timing.hdrSpace] ∧
    ps.drop (ps.length - 2) = [.mark c.timing.endMark, .space c.timing.endSpace] ∧
    ps.length % 2 = 0 ∧
    (∀ i, i < ps.length → ∃ d, ps[i]? = some (if i % 2 = 0 then .mark d else .space d)) ∧
    (c.timing = Timing.normative → ps.count (.mark 9000) = 1 ∧ ps.count (.space 4500) = 1 ∧ ps.count (.space 0) = 1)

/-- 20_memory.md R36 and R40: the reference capture of a frame puts the leading gap at index 0, the header at 1 and 2, the
mark and space of payload bit `k` at `3 + 2k` and `4 + 2k`, and the end mark last, at `2N + 3`; its length is `2N + 4`. -/
def Obligations.ReferenceCaptureLayout : Prop :=
  ∀ (t : Timing) (payload : List Bool) (g : Micros), t.endSpace = 0 →
    (captureOf (framePulses t payload) g).length = 2 * payload.length + 4 ∧
    (captureOf (framePulses t payload) g)[0]? = some g ∧
    (captureOf (framePulses t payload) g)[1]? = some t.hdrMark ∧
    (captureOf (framePulses t payload) g)[2]? = some t.hdrSpace ∧
    (∀ k b, payload[k]? = some b →
      (captureOf (framePulses t payload) g)[3 + 2 * k]? = some (if b then t.oneMark else t.zeroMark) ∧
      (captureOf (framePulses t payload) g)[4 + 2 * k]? = some (if b then t.oneSpace else t.zeroSpace)) ∧
    (captureOf (framePulses t payload) g)[2 * payload.length + 3]? = some t.endMark

/-- 70_reset_and_hazards.md R141: the wire durations of the normative instance, with R7's constants: the elements, a frame of `N` bits with `w` ones,
the control frames, the shortest and longest 64-bit frames, and the no-op SEND_DATA, which takes none. -/
def Obligations.WireDurationOfAFrame : Prop :=
  wireDuration (headerPulses Timing.normative) = 13500 ∧
  wireDuration (bitPulses Timing.normative true) = 2250 ∧
  wireDuration (bitPulses Timing.normative false) = 1120 ∧
  wireDuration (endPulses Timing.normative) = 560 ∧
  (∀ payload : List Bool, wireDuration (framePulses Timing.normative payload) =
    14060 + 1120 * payload.length + 1130 * payload.count true) ∧
  (∀ c : Config, c.timing = Timing.normative → c.CountsOfR7 → c.ctrlPrefix = 0b10100 →
    wireDuration (controlPulses c .start) = 26410 ∧ wireDuration (controlPulses c .endCode) = 26410 ∧
    wireDuration (controlPulses c .ack) = 27540 ∧ wireDuration (controlPulses c .nack) = 26410) ∧
  ∀ c : Config, c.timing = Timing.normative → c.CountsOfR7 →
    wireDuration (dataPulses c 0 64) = 85740 ∧ wireDuration (dataPulses c (BitVec.allOnes 64) 64) = 158060 ∧
    (∀ v : DataValue, 85740 ≤ wireDuration (dataPulses c v 64) ∧ wireDuration (dataPulses c v 64) ≤ 158060) ∧
    ∀ (v : DataValue) (n : BitVec 8), 64 < n.toNat → wireDuration (dataPulses c v n) = 0

/-- 10_state.md R31: the emitter is on during a mark, off during a space and after `Space(0)`, and off before any pulse.
Stated where no reset has cut a command (log 11). -/
def Obligations.EmitterLevelFollowsTheLastPulse : Prop :=
  ∀ s : State, s.levelOpen = none →
    (∀ ps d, s.trace = ps ++ [.mark d] → emitterOn s = true) ∧
    (∀ ps d, s.trace = ps ++ [.space d] → emitterOn s = false) ∧
    (s.trace = [] → emitterOn s = false)

/-- 20_memory.md R40, 30_encoding.md R70: after a SEND, the substrate's reference capture is `capture_of` the pulses that SEND
appended, if the port can present it (20_memory.md R35). That the environment step stands in a queue is the model's choice
(log 5). -/
def Obligations.ReferenceCaptureIsOfTheLastSend : Prop :=
  ∀ (s t : State) (c : Command) (g : Micros) (rest : List Input), s.busy = false → c ≠ .decode →
    exec (Instr.ofCommand c) s = .next t →
    (captureOf (t.trace.drop s.trace.length) g).length ≤ s.cfg.captureMax →
    step { t with inputs := .captureRef g :: rest } =
      .next { t with inputs := rest, capture := captureOf (t.trace.drop s.trace.length) g }

/-! ### The command port -/

/-- 70_reset_and_hazards.md R133; 93_implementation_defined.md, row 7: a command presented while BUSY = 1 is refused,
whichever it is and however it is presented (log 13). -/
def Obligations.CommandWhileBusyIsRefused : Prop :=
  ∀ s : State, s.busy = true →
    (∀ c : Command, exec (Instr.ofCommand c) s = .refused .commandWhileBusy) ∧
    ∀ (w : CommandWord) (rest : List Input), s.inputs = .command w :: rest ∨ s.inputs = .present w :: rest →
      step s = .refused .commandWhileBusy

/-- 70_reset_and_hazards.md R134; 93_implementation_defined.md, row 8: a capture presented while a DECODE is in progress is
refused (log 13); during a SEND it is taken (R136; log 21), if the port can present it. -/
def Obligations.CaptureMayNotChangeDuringADecode : Prop :=
  ∀ (s : State) (xs : List Micros) (g : Micros) (rest : List Input), s.busy = true →
    (s.phase ≠ .idle → s.inputs = .captureRaw xs :: rest ∨ s.inputs = .captureRef g :: rest →
      step s = .refused .captureChanged) ∧
    (s.phase = .idle → s.inputs = .captureRaw xs :: rest → xs.length ≤ s.cfg.captureMax →
      step s = .next { s with capture := xs, inputs := rest })

/-- 30_encoding.md R68: the opcode map, for every one of the 2^80 words. -/
def Obligations.OpcodeMapIsTotal : Prop :=
  ∀ w : CommandWord,
    (w.extractLsb' 0 2 = 0b00 → decode w = .error .reservedOp) ∧
    (w.extractLsb' 0 2 = 0b01 →
      (w.extractLsb' 2 3 = 1 → decode w = .ok .sendcStart) ∧ (w.extractLsb' 2 3 = 2 → decode w = .ok .sendcEnd) ∧
      (w.extractLsb' 2 3 = 3 → decode w = .ok .sendcAck) ∧ (w.extractLsb' 2 3 = 4 → decode w = .ok .sendcNack) ∧
      (w.extractLsb' 2 3 ∈ [0#3, 5#3, 6#3, 7#3] → decode w = .error (.reservedCtype (w.extractLsb' 2 3)))) ∧
    (w.extractLsb' 0 2 = 0b10 → decode w = .ok (.sendd (w.extractLsb' 16 64) (w.extractLsb' 8 8))) ∧
    (w.extractLsb' 0 2 = 0b11 → decode w = .ok .decode)

/-- 30_encoding.md R67: a word that names no command is refused and has no next state. -/
def Obligations.WordsThatNameNoCommandAreRefused : Prop :=
  ∀ (s : State) (w : CommandWord) (rest : List Input), s.busy = false →
    s.inputs = .command w :: rest ∨ s.inputs = .present w :: rest →
    (w.extractLsb' 0 2 = 0b00 → step s = .refused .reservedOp) ∧
    (w.extractLsb' 0 2 = 0b01 → w.extractLsb' 2 3 ∈ [0#3, 5#3, 6#3, 7#3] →
      step s = .refused (.reservedCtype (w.extractLsb' 2 3)))

/-- 30_encoding.md R71: the command words in hexadecimal. -/
def Obligations.CommandWordsInHexadecimal : Prop :=
  encodeCommand (.sendControl .start) = 0x05 ∧ encodeCommand (.sendControl .endCode) = 0x09 ∧
  encodeCommand (.sendControl .ack) = 0x0D ∧ encodeCommand (.sendControl .nack) = 0x11 ∧
  (∀ (v : DataValue) (n : BitVec 8),
    (encodeCommand (.sendData v n)).toNat = (v.toNat <<< 16) ||| (n.toNat <<< 8) ||| 0x2) ∧
  encodeCommand .decode = 0x3

/-- 95_test_vectors.md section 2.7: words written out from the encoding decode as they should. -/
def Obligations.WrittenOutWordsDecode : Prop :=
  decode 0x05 = .ok .sendcStart ∧ decode 0x09 = .ok .sendcEnd ∧ decode 0x0D = .ok .sendcAck ∧
  decode 0x11 = .ok .sendcNack ∧ decode 0x3 = .ok .decode ∧ decode 0xED = .ok .sendcAck ∧
  decode 0x350802 = .ok (.sendd 0x35 8) ∧ decode 0x7FFFFFFFFFFFFFFF4002 = .ok (.sendd 0x7FFFFFFFFFFFFFFF 64) ∧
  decode 0xF4602 = .ok (.sendd 0xF 70) ∧ decode 0xFFFFFFFFFFFFFFFFFFFF = .ok .decode ∧
  decode 0x0 = .error .reservedOp ∧ decode 0x1 = .error (.reservedCtype 0) ∧ decode 0x15 = .error (.reservedCtype 5)

/-- While BUSY = 0: when the word presented next decodes to `i`, the step runs `i`; when a control byte presented next names
a control code, the step runs that byte's instruction; and a table row's bits that decode to `i`, presented by
`withFetchWord` under the normative prefix and R7's constants, run `i` next. Three clauses are the model's choice: that what the outside
presents is a queue (log 5), that a control byte can be presented on its own (log 9), and that an 8-bit table word 0xA1 to
0xA4 is read as a control byte (log 10). -/
def Obligations.StepRunsThePresentedInstruction : Prop :=
  (∀ (s : State) (w : CommandWord) (i : Instr) (rest : List Input), s.busy = false →
    s.inputs = .command w :: rest → decode w = .ok i → step s = exec i { s with inputs := rest }) ∧
  (∀ (s : State) (b : ControlByte) (code : ControlCode) (rest : List Input), s.busy = false →
    s.inputs = .ctrlByte b :: rest → decodeCtrlByte s.cfg.toParams b = .ok code →
    step s = exec (Instr.ofControlCode code) { s with inputs := rest }) ∧
  ∀ (s : State) (nbits w : Nat) (i : Instr), s.busy = false → s.cfg.CountsOfR7 → s.cfg.ctrlPrefix = 0b10100 →
    decodeTableWord nbits w = some i → step (s.withFetchWord nbits w) = exec i s

/-- Decode and encode agree, for every instruction that has an encoding, with every operand, in every configuration with the
normative timing: the command words of 30_encoding.md R65, the control bytes of R60 and the wire symbols of R54. That the
pair of the end marker, 560 and 0, is read as an end marker is the model's choice (log 20): no rule reads one, and the decoder
never looks at it (30_encoding.md R64; 40_timing_codec.md R73; 42_decoder.md R103). -/
def Obligations.DecodeOfEncodeIsTheInstruction : Prop :=
  ∀ (c : Config) (i : Instr) (e : Encoded), c.timing = Timing.normative → encode c i = some e →
    decodeEncoded c e = .ok i

/-- Each command has one well-formed word (30_encoding.md R65, R70): a well-formed word that decodes is the encoding of what
it decodes to. -/
def Obligations.WellFormedWordIsTheEncodingOfItsCommand : Prop :=
  ∀ (c : Config) (w : CommandWord) (i : Instr), CommandWord.wellFormed w = true → decode w = .ok i →
    encode c i = some (.command w)

/-- 30_encoding.md R61: the four control bytes under the normative prefix, and their bits as transmitted, the first on the
left; with R7's constants the control byte is `{CTRL_PREFIX[4:0], type[2:0]}` (30_encoding.md R60). -/
def Obligations.ControlBytesOfTheNormativePrefix : Prop :=
  (∀ (c : Config) (code : ControlCode), c.CountsOfR7 → ctrlByte c.toParams code = c.ctrlPrefix ++ code.type) ∧
  ∀ c : Config, c.CountsOfR7 → c.ctrlPrefix = 0b10100 →
    encode c .ctrlStart = some (.byte 0xA1) ∧ encode c .ctrlEnd = some (.byte 0xA2) ∧
    encode c .ctrlAck = some (.byte 0xA3) ∧ encode c .ctrlNack = some (.byte 0xA4) ∧
    (msbFirst (ctrlByte c.toParams .start).getLsbD 8).map Bool.toNat = [1, 0, 1, 0, 0, 0, 0, 1] ∧
    (msbFirst (ctrlByte c.toParams .endCode).getLsbD 8).map Bool.toNat = [1, 0, 1, 0, 0, 0, 1, 0] ∧
    (msbFirst (ctrlByte c.toParams .ack).getLsbD 8).map Bool.toNat = [1, 0, 1, 0, 0, 0, 1, 1] ∧
    (msbFirst (ctrlByte c.toParams .nack).getLsbD 8).map Bool.toNat = [1, 0, 1, 0, 0, 1, 0, 0]

/-- 30_encoding.md R63: what the decoder does with a received control byte `B`, for all 256 values under the normative
prefix and R7's constants. That a byte can be presented on its own is the model's choice (log 9). -/
def Obligations.ReceivedControlByteOutcome : Prop :=
  ∀ (s : State) (b : ControlByte), s.busy = false → s.cfg.CountsOfR7 → s.cfg.ctrlPrefix = 0b10100 →
    ∃ t, receiveControl b s = .next t ∧
      (b ∈ [0xA1#8, 0xA2#8, 0xA3#8, 0xA4#8] →
        t.res = ⟨1, 1, b.extractLsb' 0 3, 8, b.setWidth 64, s.cfg.protocolId⟩) ∧
      (b ∈ [0xA0#8, 0xA5#8, 0xA6#8, 0xA7#8] → t.res = ⟨5, 0, 0, 0, 0, 0⟩) ∧
      (b.extractLsb' 3 5 ≠ 0b10100 → t.res = ⟨4, 0, 0, 0, 0, 0⟩) ∧
      t.busy = false ∧ t.phase = .idle ∧ t.trace = s.trace ∧ t.capture = s.capture

/-- The control bytes of 30_encoding.md R61 as instructions: the byte's code is recorded as a DECODE of its frame records it.
That this is their meaning is the model's choice (log 9). -/
def Obligations.ControlBytesRecordTheirCode : Prop :=
  ∀ (code : ControlCode) (s : State), s.busy = false →
    exec (Instr.ofControlCode code) s = .next { s with
      cursor := 3 + 2 * s.cfg.ctrlBits
      acc := (ctrlByte s.cfg.toParams code).setWidth 64
      nbits := BitVec.ofNat 7 s.cfg.ctrlBits
      isctrl := true
      res := ⟨1, 1, code.type, BitVec.ofNat 7 s.cfg.ctrlBits, (ctrlByte s.cfg.toParams code).setWidth 64,
        s.cfg.protocolId⟩
      phase := .idle }

/-- Receiving a control byte ends as a DECODE of the reference capture of its control frame ends (42_decoder.md R106,
case 1; log 9), where that capture is not too short to be examined. -/
def Obligations.ControlByteIsTheDecodeOfItsFrame : Prop :=
  ∀ (code : ControlCode) (s : State) (g : Micros), s.busy = false → s.cfg.timing = Timing.normative →
    s.cfg.minCaptureLen ≤ 2 * s.cfg.ctrlBits + 4 →
    ∃ t, exec (Instr.ofControlCode code) s = .next t ∧
      exec .decode { s with capture := captureOf (controlPulses s.cfg code) g } =
        .next { t with capture := captureOf (controlPulses s.cfg code) g }

/-! ### The frame decoder -/

/-- 42_decoder.md R95: GETBIT, its three arms, its cursor, its corner cases; it never fails and has no encoding. -/
def Obligations.GetBitReadsOnePair : Prop :=
  (∀ (t : Timing) (xs : List Micros) (c : Nat),
    (xs.length ≤ c + 1 → getbit t xs c = .ok (false, c + 2)) ∧
    (c + 1 < xs.length → getbit t xs c = .ok (isOne t (xs.getD c 0) (xs.getD (c + 1) 0), c + 2)) ∧
    (c + 1 < xs.length → isZero t (xs.getD c 0) (xs.getD (c + 1) 0) = true →
      isOne t (xs.getD c 0) (xs.getD (c + 1) 0) = false → getbit t xs c = .ok (false, c + 2))) ∧
  (∀ (c : Nat) (s : State), ∃ t, exec (.getBit c) s = .next t ∧ { t with ret := s.ret } = s) ∧
  (∀ (cfg : Config) (c : Nat), encode cfg (.getBit c) = none) ∧
  (∀ xs : List Micros, xs.getD 5 0 = 560 → xs.getD 6 0 = 1700 → 7 ≤ xs.length →
    getbit Timing.normative xs 5 = .ok (true, 7)) ∧
  ∀ (t : Timing) (xs : List Micros), xs.length = 6 → getbit t xs 5 = .ok (false, 7)

/-- GETBIT completes at every cursor and answers the bit and the next cursor (42_decoder.md R95), writing no register; that
the answer stands in `ret` is the model's choice (log 6). -/
def Obligations.GetBitAnswersInRet : Prop :=
  ∀ (c : Nat) (s : State), exec (.getBit c) s = .next { s with
    ret := .gotBit (decide (c + 1 < s.capture.length) && isOne s.cfg.timing (s.capture.getD c 0) (s.capture.getD (c + 1) 0))
      (c + 2) }

/-- 42_decoder.md R92 and R93: LENGTH_CHECK, whose bound is 6 with R7's constants, and HEADER_CHECK. -/
def Obligations.LengthAndHeaderRules : Prop :=
  ∀ s : State, (s.cfg.CountsOfR7 → s.cfg.minCaptureLen = 6) ∧
    (s.phase = .lengthCheck → decodeRule s =
      .ok (if s.capture.length < s.cfg.minCaptureLen
        then { s with res := { s.res with status := 2 }, phase := .idle, busy := false }
        else { s with phase := .headerCheck })) ∧
    (s.phase = .headerCheck → s.cfg.minCaptureLen ≤ s.capture.length → decodeRule s =
      .ok (if isHeader s.cfg.timing (s.capture.getD 1 0) (s.capture.getD 2 0)
        then { s with cursor := 3, phase := .discriminate }
        else { s with res := { s.res with status := 3 }, phase := .idle, busy := false }))

/-- 42_decoder.md R94, R96 and R98: DISCRIMINATE, CTRL_READ and DATA_READ, the bit shifted in below ACC[62:0]; the
reads go on to `CTRL_BITS` and `MAX_DATA_BITS`, 8 and 64 with R7's constants. -/
def Obligations.DiscriminateAndReadRules : Prop :=
  ∀ s : State,
    (s.phase = .discriminate → s.cursor = 3 → s.cfg.minCaptureLen ≤ s.capture.length → decodeRule s =
      .ok { s with
        isctrl := isOne s.cfg.timing (s.capture.getD 3 0) (s.capture.getD 4 0)
        phase := if isOne s.cfg.timing (s.capture.getD 3 0) (s.capture.getD 4 0) then .ctrlRead else .dataRead }) ∧
    (s.phase = .ctrlRead → decodeRule s =
      .ok (if s.nbits.toNat < s.cfg.ctrlBits then { s with
          cursor := s.cursor + 2, nbits := s.nbits + 1
          acc := (s.acc <<< 1) ||| (BitVec.ofBool (decide (s.cursor + 1 < s.capture.length) &&
            isOne s.cfg.timing (s.capture.getD s.cursor 0) (s.capture.getD (s.cursor + 1) 0))).setWidth 64 }
        else { s with phase := .ctrlCheck })) ∧
    (s.phase = .dataRead → decodeRule s =
      .ok (if s.cursor + 1 < s.capture.length ∧ s.nbits.toNat < s.cfg.maxDataBits then { s with
          cursor := s.cursor + 2, nbits := s.nbits + 1
          acc := (s.acc <<< 1) ||| (BitVec.ofBool
            (isOne s.cfg.timing (s.capture.getD s.cursor 0) (s.capture.getD (s.cursor + 1) 0))).setWidth 64 }
        else { s with res := { s.res with kind := 0, bits := s.nbits, value := s.acc }, phase := .done }))

/-- 42_decoder.md R97 and R99: CTRL_CHECK, first the prefix, then the type, of `B`, the low `CTRL_BITS` bits of ACC; with R7's
constants `B` is `ACC[7:0]`, the prefix `B[7:3]` and the type `B[2:0]`; and DONE. -/
def Obligations.ControlCheckAndDoneRules : Prop :=
  ∀ s : State,
    (s.phase = .ctrlCheck → decodeRule s =
      .ok (if s.acc.toNat % 2 ^ s.cfg.ctrlBits / 2 ^ s.cfg.ctrlTypeBits ≠ s.cfg.ctrlPrefix.toNat
          then { s with res := { s.res with status := 4 }, phase := .idle, busy := false }
        else if s.acc.toNat % 2 ^ s.cfg.ctrlTypeBits ∉ [1, 2, 3, 4]
          then { s with res := { s.res with status := 5 }, phase := .idle, busy := false }
        else { s with
          res := { s.res with
            kind := 1
            ctype := BitVec.ofNat 3 (s.acc.toNat % 2 ^ s.cfg.ctrlTypeBits)
            bits := s.nbits
            value := BitVec.ofNat 64 (s.acc.toNat % 2 ^ s.cfg.ctrlBits) }
          phase := .done })) ∧
    (s.phase = .ctrlCheck → s.cfg.CountsOfR7 → decodeRule s =
      .ok (if s.acc.extractLsb' 3 5 ≠ s.cfg.ctrlPrefix
          then { s with res := { s.res with status := 4 }, phase := .idle, busy := false }
        else if s.acc.extractLsb' 0 3 ∉ [1#3, 2#3, 3#3, 4#3]
          then { s with res := { s.res with status := 5 }, phase := .idle, busy := false }
        else { s with
          res := { s.res with
            kind := 1, ctype := s.acc.extractLsb' 0 3, bits := s.nbits, value := (s.acc.extractLsb' 0 8).setWidth 64 }
          phase := .done })) ∧
    (s.phase = .done → decodeRule s =
      .ok { s with res := { s.res with status := 1, proto := s.cfg.protocolId }, phase := .idle, busy := false })

/-- 42_decoder.md R101: DECODE, run by the state machine, is the closed functional form: the result registers are those of
`decodeResult`, the context ends as the last rule left it, and nothing else changes. It completes on every capture. The
function has the constants of 00_scope.md R7 in place of their numbers; with R7's own values it is R101's, number by number. -/
def Obligations.DecodeIsTheClosedForm : Prop :=
  (∀ s : State, s.busy = false → exec .decode s = .next (decodedState s)) ∧
  ∀ (c : Config) (xs : List Micros), c.CountsOfR7 → decodeResult c xs =
    if xs.length < 6 then .failed .bufferTooShort
    else if ¬ isHeader c.timing (xs.getD 1 0) (xs.getD 2 0) then .failed .headerMismatch
    else if isOne c.timing (xs.getD 3 0) (xs.getD 4 0) then
      if (BitVec.ofNat 8 (bitSum c.timing xs 8)).extractLsb' 3 5 ≠ c.ctrlPrefix then .failed .prefixMismatch
      else if (BitVec.ofNat 8 (bitSum c.timing xs 8)).extractLsb' 0 3 ∉ [1#3, 2#3, 3#3, 4#3] then .failed .typeInvalid
      else .control ((BitVec.ofNat 8 (bitSum c.timing xs 8)).extractLsb' 0 3).toNat (bitSum c.timing xs 8)
    else .data (min 64 ((xs.length - 3) / 2)) (bitSum c.timing xs (min 64 ((xs.length - 3) / 2)))

/-- 42_decoder.md R102: how many bits a data-path decode reads, 64 being `MAX_DATA_BITS` and 131 the length at which that
many are complete, and that its first bit is 0. -/
def Obligations.DataPathBitCountAndTopBit : Prop :=
  ∀ s : State, s.busy = false → s.cfg.minCaptureLen ≤ s.capture.length → hasHeader s.cfg.timing s.capture = true →
    isControlFrame s.cfg.timing s.capture = false →
    (s.cfg.CountsOfR7 → 6 ≤ s.capture.length ∧ s.cfg.maxDataBits = 64 ∧ 2 * s.cfg.maxDataBits + 3 = 131) ∧
    ∃ t, exec .decode s = .next t ∧ t.res.status = 1 ∧ t.res.kind = 0 ∧
      t.res.bits.toNat = min s.cfg.maxDataBits ((s.capture.length - 3) / 2) ∧ 1 ≤ t.res.bits.toNat ∧
      (∀ n, s.capture.length = 2 * n + 4 → n ≤ s.cfg.maxDataBits → t.res.bits.toNat = n) ∧
      (∀ n, s.capture.length = 2 * n + 5 → n < s.cfg.maxDataBits → t.res.bits.toNat = n + 1) ∧
      (2 * s.cfg.maxDataBits + 3 ≤ s.capture.length → t.res.bits.toNat = s.cfg.maxDataBits) ∧
      t.res.value.getLsbD (t.res.bits.toNat - 1) = false ∧ t.res.value.toNat < 2 ^ (t.res.bits.toNat - 1)

/-- 42_decoder.md R105: a DECODE takes exactly the steps the rule counts, its 8 reads being `CTRL_BITS`, at most 70, and then
is complete. -/
def Obligations.DecodeTakesTheCountedSteps : Prop :=
  ∀ s : State, s.busy = false →
    decodeSteps s.cfg s.capture ≤ 70 ∧
    (∀ k, k < decodeSteps s.cfg s.capture → ∃ t, decodeRun k (beginDecode s) = .ok t ∧ t.phase ≠ .idle ∧ t.busy = true) ∧
    ∃ t, decodeRun (decodeSteps s.cfg s.capture) (beginDecode s) = .ok t ∧ t.phase = .idle ∧ t.busy = false

/-- 60_exceptions.md R117, 42_decoder.md R104: a DECODE reports one outcome, the first that applies: too short, header
mismatch, then on the control path prefix mismatch and type invalid; the data path never fails. Too short is below
`MIN_CAPTURE_LEN`, 6 with R7's constants. A failure records one of
the four codes, every other result register reads 0, no pulse is emitted, the capture and the configuration stay, and the
core is free again (60_exceptions.md R114, R115). -/
def Obligations.TheFirstFailureInOrderIsReported : Prop :=
  ∀ s : State, s.busy = false →
    ∃ t, exec .decode s = .next t ∧ t.phase = .idle ∧ t.busy = false ∧
      t.trace = s.trace ∧ t.capture = s.capture ∧ t.cfg = s.cfg ∧
      (t.res.status = 1 ∨ t.res = ⟨2, 0, 0, 0, 0, 0⟩ ∨ t.res = ⟨3, 0, 0, 0, 0, 0⟩ ∨ t.res = ⟨4, 0, 0, 0, 0, 0⟩ ∨
        t.res = ⟨5, 0, 0, 0, 0, 0⟩) ∧
      (s.cfg.CountsOfR7 → s.cfg.minCaptureLen = 6) ∧
      (s.capture.length < s.cfg.minCaptureLen ↔ t.res.status = 2) ∧
      (s.cfg.minCaptureLen ≤ s.capture.length → (hasHeader s.cfg.timing s.capture = false ↔ t.res.status = 3)) ∧
      (s.cfg.minCaptureLen ≤ s.capture.length → hasHeader s.cfg.timing s.capture = true →
        isControlFrame s.cfg.timing s.capture = true →
        (receivedPrefix s.cfg s.capture ≠ s.cfg.ctrlPrefix.toNat → t.res.status = 4) ∧
        (receivedPrefix s.cfg s.capture = s.cfg.ctrlPrefix.toNat →
          (receivedType s.cfg s.capture ∉ [1, 2, 3, 4] → t.res.status = 5) ∧
          (receivedType s.cfg s.capture ∈ [1, 2, 3, 4] → t.res.status = 1))) ∧
      (s.cfg.minCaptureLen ≤ s.capture.length → hasHeader s.cfg.timing s.capture = true →
        isControlFrame s.cfg.timing s.capture = false → t.res.status = 1)

/-- 42_decoder.md R108: a first payload pair that matches Logical 1, in a capture long enough to be examined (6 samples with
R7's constants) with a matching header, always gives the control path: a control code, PREFIX_MISMATCH or TYPE_INVALID,
never a data frame; the top bit of what is read is 1 (42_decoder.md R96). -/
def Obligations.FirstBitOneIsNeverData : Prop :=
  ∀ s : State, s.busy = false → s.cfg.minCaptureLen ≤ s.capture.length →
    isHeader s.cfg.timing (s.capture.getD 1 0) (s.capture.getD 2 0) = true →
    isOne s.cfg.timing (s.capture.getD 3 0) (s.capture.getD 4 0) = true →
    ∃ t, exec .decode s = .next t ∧ t.isctrl = true ∧ t.acc.getLsbD (s.cfg.ctrlBits - 1) = true ∧
      ((t.res.status = 1 ∧ t.res.kind = 1) ∨ t.res.status = 4 ∨ t.res.status = 5)

/-- 42_decoder.md R106 and R109: the round trips through the reference channel: every control code; every data frame whose
first bit is 0; a data frame whose first bit is 1 goes down the control path with its first eight bits, padded with 0;
an empty data frame is too short; and the example of R109. -/
def Obligations.ReferenceChannelRoundTrips : Prop :=
  ∀ (s : State) (g : Micros), s.busy = false → s.cfg.timing = Timing.normative → s.cfg.CountsOfR7 →
    s.cfg.ctrlPrefix = 0b10100 →
    (∀ code : ControlCode, s.capture = captureOf (controlPulses s.cfg code) g →
      ∃ t, exec .decode s = .next t ∧
        t.res = ⟨1, 1, code.type, 8, 0xA0#64 ||| code.type.setWidth 64, s.cfg.protocolId⟩) ∧
    (∀ (v : DataValue) (n : BitVec 8), s.capture = captureOf (dataPulses s.cfg v n) g →
      (1 ≤ n.toNat → n.toNat ≤ 64 → v.getLsbD (n.toNat - 1) = false →
        ∃ t, exec .decode s = .next t ∧
          t.res = ⟨1, 0, 0, n.setWidth 7, BitVec.ofNat 64 (v.toNat % 2 ^ n.toNat), s.cfg.protocolId⟩) ∧
      (1 ≤ n.toNat → n.toNat ≤ 64 → v.getLsbD (n.toNat - 1) = true →
        ∀ b : ControlByte,
          (n.toNat ≤ 8 → b.toNat = (v.toNat % 2 ^ n.toNat) <<< (8 - n.toNat)) →
          (8 < n.toNat → b.toNat = (v.toNat >>> (n.toNat - 8)) % 256) →
          ∃ t, exec .decode s = .next t ∧
            (b ∈ [0xA1#8, 0xA2#8, 0xA3#8, 0xA4#8] →
              t.res = ⟨1, 1, b.extractLsb' 0 3, 8, b.setWidth 64, s.cfg.protocolId⟩) ∧
            (b ∈ [0xA0#8, 0xA5#8, 0xA6#8, 0xA7#8] → t.res = ⟨5, 0, 0, 0, 0, 0⟩) ∧
            (b ∉ [0xA0#8, 0xA1#8, 0xA2#8, 0xA3#8, 0xA4#8, 0xA5#8, 0xA6#8, 0xA7#8] → t.res = ⟨4, 0, 0, 0, 0, 0⟩)) ∧
      (n.toNat = 0 → ∃ t, exec .decode s = .next t ∧ t.res = ⟨2, 0, 0, 0, 0, 0⟩)) ∧
    (s.capture = captureOf (dataPulses s.cfg 0b1011 4) g →
      ∃ t, exec .decode s = .next t ∧ t.res = ⟨4, 0, 0, 0, 0, 0⟩)

/-- 42_decoder.md R107: a capture whose samples match, within the tolerance, those the decode of a reference capture reads
decodes to the same result, under the normative timing. -/
def Obligations.JitterWithinToleranceDecodesTheSame : Prop :=
  ∀ (s s' : State) (ps : List Pulse) (g : Micros), s.busy = false → s'.busy = false → s'.cfg = s.cfg →
    s.cfg.timing = Timing.normative →
    ((∃ code, ps = controlPulses s.cfg code) ∨ ∃ v n, ps = dataPulses s.cfg v n) →
    s.capture = captureOf ps g → s'.capture.length = s.capture.length →
    (∀ i ∈ readIndices s.cfg s.capture,
      withinTolerance s.cfg.timing (s'.capture.getD i 0) (s.capture.getD i 0) = true) →
    ∃ t t', exec .decode s = .next t ∧ exec .decode s' = .next t' ∧ t'.res = t.res

/-- 20_memory.md R37: the decoder never reads `Sample(0)` nor an index at or past the length; a DECODE depends only on the
length and on the samples at `readIndices`: 1 and 2, then 3 and 4 and the complete pairs if the header matches. -/
def Obligations.DecodeDependsOnlyOnTheSamplesItReads : Prop :=
  (∀ (c : Config) (xs : List Micros) (i : Nat), i ∈ readIndices c xs → 1 ≤ i ∧ i < xs.length) ∧
  (∀ (c : Config) (xs : List Micros), xs.length < c.minCaptureLen → readIndices c xs = []) ∧
  (∀ (c : Config) (xs : List Micros), c.minCaptureLen ≤ xs.length → 1 ∈ readIndices c xs ∧ 2 ∈ readIndices c xs ∧
    (hasHeader c.timing xs = false → readIndices c xs = [1, 2]) ∧
    (hasHeader c.timing xs = true → 3 ∈ readIndices c xs ∧ 4 ∈ readIndices c xs)) ∧
  ∀ s s' : State, s.busy = false → s'.busy = false → s'.cfg = s.cfg → s'.capture.length = s.capture.length →
    (∀ i ∈ readIndices s.cfg s.capture, s'.capture.getD i 0 = s.capture.getD i 0) →
    ∃ t t', exec .decode s = .next t ∧ exec .decode s' = .next t' ∧ t'.res = t.res

/-- 42_decoder.md R110: DECODE and SEND are independent. A DECODE emits nothing and its result depends only on the capture and
the configuration, on no earlier command; a SEND changes no result register, no decoder register and no capture. -/
def Obligations.DecodeAndSendAreIndependent : Prop :=
  (∀ s s' : State, s.busy = false → s'.busy = false → s'.cfg = s.cfg → s'.capture = s.capture →
    ∃ t t', exec .decode s = .next t ∧ exec .decode s' = .next t' ∧ t.res = t'.res ∧ t.cursor = t'.cursor ∧
      t.acc = t'.acc ∧ t.nbits = t'.nbits ∧ t.isctrl = t'.isctrl ∧ t.trace = s.trace ∧ t'.trace = s'.trace) ∧
  ∀ (s : State) (c : Command), s.busy = false → c ≠ .decode → ∃ t, exec (Instr.ofCommand c) s = .next t ∧
    t.res = s.res ∧ t.phase = s.phase ∧ t.cursor = s.cursor ∧ t.acc = s.acc ∧ t.nbits = s.nbits ∧
    t.isctrl = s.isctrl ∧ t.capture = s.capture

/-- 42_decoder.md R103: samples past the control bits, from index 19 on with R7's constants, are ignored, and a recorded idle
space after the end mark is read, with the end mark, as one more data bit. -/
def Obligations.SamplesAfterThePayload : Prop :=
  (∀ (s : State) (xs ys : List Micros), s.busy = false → 3 + 2 * s.cfg.ctrlBits ≤ xs.length →
    s.cfg.minCaptureLen ≤ xs.length → isControlFrame s.cfg.timing xs = true →
    ∃ t t', exec .decode { s with capture := xs } = .next t ∧ exec .decode { s with capture := xs ++ ys } = .next t' ∧
      t'.res = t.res) ∧
  ∀ (s : State) (v : DataValue) (n : BitVec 8) (g idle : Micros), s.busy = false → s.cfg.timing = Timing.normative →
    1 ≤ n.toNat → n.toNat < s.cfg.maxDataBits → v.getLsbD (n.toNat - 1) = false →
    s.capture = captureOf (dataPulses s.cfg v n) g ++ [idle] → s.cfg.minCaptureLen ≤ s.capture.length →
    ∃ t, exec .decode s = .next t ∧ t.res.status = 1 ∧ t.res.kind = 0 ∧ t.res.bits.toNat = n.toNat + 1 ∧
      t.res.value.toNat = 2 * (v.toNat % 2 ^ n.toNat) +
        (if withinTolerance Timing.normative idle Timing.normative.oneSpace then 1 else 0)

/-! ### The whole machine -/

/-- 10_state.md R28 and R30, 20_memory.md R34 and R52: no instruction but DECODE, and the control bytes that end one, writes a
result register; TRACE only grows; no instruction writes the capture, the configuration or what waits outside. -/
def Obligations.OnlyDecodeWritesResultsAndTraceOnlyGrows : Prop :=
  ∀ (i : Instr) (s t : State), exec i s = .next t →
    (i ≠ .decode → (∀ code, i ≠ Instr.ofControlCode code) →
      t.res = s.res ∧ t.cursor = s.cursor ∧ t.acc = s.acc ∧ t.nbits = s.nbits ∧ t.isctrl = s.isctrl) ∧
    s.trace <+: t.trace ∧ t.capture = s.capture ∧ t.cfg = s.cfg ∧ t.inputs = s.inputs

/-- 41_sender.md R82 and 42_decoder.md R90: a command presented stepwise, with nothing else from outside, ends as the same
command run in one step, after at most `commandBound` steps, whichever word presents it (log 4). -/
def Obligations.StepwiseCommandEndsAsTheAtomicOne : Prop :=
  ∀ (s : State) (w : CommandWord) (c : Command) (n : Nat), Consistent s → s.busy = false →
    decodeCommand w = .ok c → commandBound s.cfg c ≤ n →
    Host.Core.run core (n + 1) { s with inputs := [.present w] } = exec (Instr.ofCommand c) { s with inputs := [] }

/-- 10_state.md R28: the host reads the stored registers while BUSY = 0, and free values while a DECODE is in progress; a
read changes nothing of the core (log 12). That a read during a SEND returns the stored registers is the model's choice
(log 25). -/
def Obligations.HostReadsTheStoredRegisters : Prop :=
  ∀ (s : State) (rest : List Input), s.inputs = .readResults :: rest →
    ∃ t, step s = .next t ∧ t = { s with inputs := rest, hostRead := t.hostRead, freeCount := t.freeCount } ∧
      (s.busy = false ∨ s.phase = .idle → t.hostRead = some ⟨s.busy, s.res⟩) ∧
      (s.busy = true → s.phase ≠ .idle → ∃ r, t.hostRead = some ⟨true, r⟩)

/-- The reset state is sound, under every configuration. -/
def Obligations.ResetIsConsistent : Prop :=
  ∀ c : Config, Consistent (State.resetWith c)

/-- Every step keeps the machine sound, from every sound state and whatever the outside does. -/
def Obligations.EveryStepKeepsTheStateConsistent : Prop :=
  ∀ s t : State, Consistent s → step s = .next t → Consistent t

/-- 20_memory.md R37 and R48: from a sound state no step faults: the decoder never reads outside the capture. -/
def Obligations.NoStepFaultsFromAConsistentState : Prop :=
  ∀ (s : State) (f : Fault), Consistent s → step s ≠ .fault f

/-- 60_exceptions.md R128: in a sound state the idle core keeps all its state while nothing is presented, and its emitter is
off, but for the free level after a reset that cut a command (70_reset_and_hazards.md R131; log 11). -/
def Obligations.IdleCoreKeepsItsStateWithTheEmitterOff : Prop :=
  ∀ s : State, Consistent s → s.busy = false →
    (s.inputs = [] → step s = .next s) ∧ (s.levelOpen = none → emitterOn s = false)
end

