-- ==== Sys2Proof/Laws/State.lean ====
section
/-! SUPPORT. What each named update of the state leaves in each field, true by rfl, so that no proof unfolds an update. -/

namespace Sys2Proof.Machine

variable (s : State)

/-! ### `emit` -/

@[simp] theorem emit_cfg (p : Pulse) : (emit p s).cfg = s.cfg := rfl
@[simp] theorem emit_phase (p : Pulse) : (emit p s).phase = s.phase := rfl
@[simp] theorem emit_cursor (p : Pulse) : (emit p s).cursor = s.cursor := rfl
@[simp] theorem emit_acc (p : Pulse) : (emit p s).acc = s.acc := rfl
@[simp] theorem emit_nbits (p : Pulse) : (emit p s).nbits = s.nbits := rfl
@[simp] theorem emit_isctrl (p : Pulse) : (emit p s).isctrl = s.isctrl := rfl
@[simp] theorem emit_res (p : Pulse) : (emit p s).res = s.res := rfl
@[simp] theorem emit_busy (p : Pulse) : (emit p s).busy = s.busy := rfl
@[simp] theorem emit_trace (p : Pulse) : (emit p s).trace = s.trace ++ [p] := rfl
@[simp] theorem emit_sending (p : Pulse) : (emit p s).sending = s.sending := rfl
@[simp] theorem emit_lastSend (p : Pulse) : (emit p s).lastSend = s.lastSend := rfl
@[simp] theorem emit_capture (p : Pulse) : (emit p s).capture = s.capture := rfl
@[simp] theorem emit_inputs (p : Pulse) : (emit p s).inputs = s.inputs := rfl
@[simp] theorem emit_ret (p : Pulse) : (emit p s).ret = s.ret := rfl
@[simp] theorem emit_hostRead (p : Pulse) : (emit p s).hostRead = s.hostRead := rfl
@[simp] theorem emit_levelOpen (p : Pulse) : (emit p s).levelOpen = none := rfl
@[simp] theorem emit_freeCount (p : Pulse) : (emit p s).freeCount = s.freeCount := rfl

/-! ### `accept` -/

@[simp] theorem accept_cfg : (accept s).cfg = s.cfg := rfl
@[simp] theorem accept_phase : (accept s).phase = s.phase := rfl
@[simp] theorem accept_cursor : (accept s).cursor = s.cursor := rfl
@[simp] theorem accept_acc : (accept s).acc = s.acc := rfl
@[simp] theorem accept_nbits : (accept s).nbits = s.nbits := rfl
@[simp] theorem accept_isctrl : (accept s).isctrl = s.isctrl := rfl
@[simp] theorem accept_res : (accept s).res = s.res := rfl
@[simp] theorem accept_busy : (accept s).busy = true := rfl
@[simp] theorem accept_trace : (accept s).trace = s.trace := rfl
@[simp] theorem accept_sending : (accept s).sending = s.sending := rfl
@[simp] theorem accept_lastSend : (accept s).lastSend = s.lastSend := rfl
@[simp] theorem accept_capture : (accept s).capture = s.capture := rfl
@[simp] theorem accept_inputs : (accept s).inputs = s.inputs := rfl
@[simp] theorem accept_ret : (accept s).ret = s.ret := rfl
@[simp] theorem accept_hostRead : (accept s).hostRead = s.hostRead := rfl
@[simp] theorem accept_levelOpen : (accept s).levelOpen = s.levelOpen := rfl
@[simp] theorem accept_freeCount : (accept s).freeCount = s.freeCount := rfl

/-! ### `completeSend` -/

@[simp] theorem completeSend_cfg : (completeSend s).cfg = s.cfg := rfl
@[simp] theorem completeSend_phase : (completeSend s).phase = s.phase := rfl
@[simp] theorem completeSend_cursor : (completeSend s).cursor = s.cursor := rfl
@[simp] theorem completeSend_acc : (completeSend s).acc = s.acc := rfl
@[simp] theorem completeSend_nbits : (completeSend s).nbits = s.nbits := rfl
@[simp] theorem completeSend_isctrl : (completeSend s).isctrl = s.isctrl := rfl
@[simp] theorem completeSend_res : (completeSend s).res = s.res := rfl
@[simp] theorem completeSend_busy : (completeSend s).busy = false := rfl
@[simp] theorem completeSend_trace : (completeSend s).trace = s.trace := rfl
@[simp] theorem completeSend_sending : (completeSend s).sending = s.sending := rfl
@[simp] theorem completeSend_lastSend : (completeSend s).lastSend = s.lastSend := rfl
@[simp] theorem completeSend_capture : (completeSend s).capture = s.capture := rfl
@[simp] theorem completeSend_inputs : (completeSend s).inputs = s.inputs := rfl
@[simp] theorem completeSend_ret : (completeSend s).ret = s.ret := rfl
@[simp] theorem completeSend_hostRead : (completeSend s).hostRead = s.hostRead := rfl
@[simp] theorem completeSend_levelOpen : (completeSend s).levelOpen = s.levelOpen := rfl
@[simp] theorem completeSend_freeCount : (completeSend s).freeCount = s.freeCount := rfl

/-! ### `beginSend` -/

@[simp] theorem beginSend_cfg (ps : List Pulse) : (beginSend ps s).cfg = s.cfg := rfl
@[simp] theorem beginSend_phase (ps : List Pulse) : (beginSend ps s).phase = s.phase := rfl
@[simp] theorem beginSend_cursor (ps : List Pulse) : (beginSend ps s).cursor = s.cursor := rfl
@[simp] theorem beginSend_acc (ps : List Pulse) : (beginSend ps s).acc = s.acc := rfl
@[simp] theorem beginSend_nbits (ps : List Pulse) : (beginSend ps s).nbits = s.nbits := rfl
@[simp] theorem beginSend_isctrl (ps : List Pulse) : (beginSend ps s).isctrl = s.isctrl := rfl
@[simp] theorem beginSend_res (ps : List Pulse) : (beginSend ps s).res = s.res := rfl
@[simp] theorem beginSend_busy (ps : List Pulse) : (beginSend ps s).busy = true := rfl
@[simp] theorem beginSend_trace (ps : List Pulse) : (beginSend ps s).trace = s.trace := rfl
@[simp] theorem beginSend_sending (ps : List Pulse) : (beginSend ps s).sending = ps := rfl
@[simp] theorem beginSend_lastSend (ps : List Pulse) : (beginSend ps s).lastSend = [] := rfl
@[simp] theorem beginSend_capture (ps : List Pulse) : (beginSend ps s).capture = s.capture := rfl
@[simp] theorem beginSend_inputs (ps : List Pulse) : (beginSend ps s).inputs = s.inputs := rfl
@[simp] theorem beginSend_ret (ps : List Pulse) : (beginSend ps s).ret = s.ret := rfl
@[simp] theorem beginSend_hostRead (ps : List Pulse) : (beginSend ps s).hostRead = s.hostRead := rfl
@[simp] theorem beginSend_levelOpen (ps : List Pulse) : (beginSend ps s).levelOpen = s.levelOpen := rfl
@[simp] theorem beginSend_freeCount (ps : List Pulse) : (beginSend ps s).freeCount = s.freeCount := rfl

/-! ### `beginDecode` -/

@[simp] theorem beginDecode_cfg : (beginDecode s).cfg = s.cfg := rfl
@[simp] theorem beginDecode_phase : (beginDecode s).phase = .reset := rfl
@[simp] theorem beginDecode_cursor : (beginDecode s).cursor = s.cursor := rfl
@[simp] theorem beginDecode_acc : (beginDecode s).acc = s.acc := rfl
@[simp] theorem beginDecode_nbits : (beginDecode s).nbits = s.nbits := rfl
@[simp] theorem beginDecode_isctrl : (beginDecode s).isctrl = s.isctrl := rfl
@[simp] theorem beginDecode_res : (beginDecode s).res = s.res := rfl
@[simp] theorem beginDecode_busy : (beginDecode s).busy = true := rfl
@[simp] theorem beginDecode_trace : (beginDecode s).trace = s.trace := rfl
@[simp] theorem beginDecode_sending : (beginDecode s).sending = s.sending := rfl
@[simp] theorem beginDecode_lastSend : (beginDecode s).lastSend = s.lastSend := rfl
@[simp] theorem beginDecode_capture : (beginDecode s).capture = s.capture := rfl
@[simp] theorem beginDecode_inputs : (beginDecode s).inputs = s.inputs := rfl
@[simp] theorem beginDecode_ret : (beginDecode s).ret = s.ret := rfl
@[simp] theorem beginDecode_hostRead : (beginDecode s).hostRead = s.hostRead := rfl
@[simp] theorem beginDecode_levelOpen : (beginDecode s).levelOpen = s.levelOpen := rfl
@[simp] theorem beginDecode_freeCount : (beginDecode s).freeCount = s.freeCount := rfl

/-! ### `raiseFail` -/

@[simp] theorem raiseFail_cfg (r : Failure) : (raiseFail r s).cfg = s.cfg := rfl
@[simp] theorem raiseFail_phase (r : Failure) : (raiseFail r s).phase = .idle := rfl
@[simp] theorem raiseFail_cursor (r : Failure) : (raiseFail r s).cursor = s.cursor := rfl
@[simp] theorem raiseFail_acc (r : Failure) : (raiseFail r s).acc = s.acc := rfl
@[simp] theorem raiseFail_nbits (r : Failure) : (raiseFail r s).nbits = s.nbits := rfl
@[simp] theorem raiseFail_isctrl (r : Failure) : (raiseFail r s).isctrl = s.isctrl := rfl
@[simp] theorem raiseFail_res (r : Failure) : (raiseFail r s).res = { s.res with status := r.code } := rfl
@[simp] theorem raiseFail_busy (r : Failure) : (raiseFail r s).busy = false := rfl
@[simp] theorem raiseFail_trace (r : Failure) : (raiseFail r s).trace = s.trace := rfl
@[simp] theorem raiseFail_sending (r : Failure) : (raiseFail r s).sending = s.sending := rfl
@[simp] theorem raiseFail_lastSend (r : Failure) : (raiseFail r s).lastSend = s.lastSend := rfl
@[simp] theorem raiseFail_capture (r : Failure) : (raiseFail r s).capture = s.capture := rfl
@[simp] theorem raiseFail_inputs (r : Failure) : (raiseFail r s).inputs = s.inputs := rfl
@[simp] theorem raiseFail_ret (r : Failure) : (raiseFail r s).ret = s.ret := rfl
@[simp] theorem raiseFail_hostRead (r : Failure) : (raiseFail r s).hostRead = s.hostRead := rfl
@[simp] theorem raiseFail_levelOpen (r : Failure) : (raiseFail r s).levelOpen = s.levelOpen := rfl
@[simp] theorem raiseFail_freeCount (r : Failure) : (raiseFail r s).freeCount = s.freeCount := rfl

/-! ### `finish` -/

@[simp] theorem finish_cfg : (finish s).cfg = s.cfg := rfl
@[simp] theorem finish_phase : (finish s).phase = .idle := rfl
@[simp] theorem finish_cursor : (finish s).cursor = s.cursor := rfl
@[simp] theorem finish_acc : (finish s).acc = s.acc := rfl
@[simp] theorem finish_nbits : (finish s).nbits = s.nbits := rfl
@[simp] theorem finish_isctrl : (finish s).isctrl = s.isctrl := rfl
@[simp] theorem finish_res : (finish s).res = { s.res with status := statusOk, proto := s.cfg.protocolId } := rfl
@[simp] theorem finish_busy : (finish s).busy = false := rfl
@[simp] theorem finish_trace : (finish s).trace = s.trace := rfl
@[simp] theorem finish_sending : (finish s).sending = s.sending := rfl
@[simp] theorem finish_lastSend : (finish s).lastSend = s.lastSend := rfl
@[simp] theorem finish_capture : (finish s).capture = s.capture := rfl
@[simp] theorem finish_inputs : (finish s).inputs = s.inputs := rfl
@[simp] theorem finish_ret : (finish s).ret = s.ret := rfl
@[simp] theorem finish_hostRead : (finish s).hostRead = s.hostRead := rfl
@[simp] theorem finish_levelOpen : (finish s).levelOpen = s.levelOpen := rfl
@[simp] theorem finish_freeCount : (finish s).freeCount = s.freeCount := rfl

/-! ### `clearContext` -/

@[simp] theorem clearContext_cfg : (clearContext s).cfg = s.cfg := rfl
@[simp] theorem clearContext_phase : (clearContext s).phase = s.phase := rfl
@[simp] theorem clearContext_cursor : (clearContext s).cursor = 0 := rfl
@[simp] theorem clearContext_acc : (clearContext s).acc = 0 := rfl
@[simp] theorem clearContext_nbits : (clearContext s).nbits = 0 := rfl
@[simp] theorem clearContext_isctrl : (clearContext s).isctrl = false := rfl
@[simp] theorem clearContext_res : (clearContext s).res = ResultRegs.cleared := rfl
@[simp] theorem clearContext_busy : (clearContext s).busy = s.busy := rfl
@[simp] theorem clearContext_trace : (clearContext s).trace = s.trace := rfl
@[simp] theorem clearContext_sending : (clearContext s).sending = s.sending := rfl
@[simp] theorem clearContext_lastSend : (clearContext s).lastSend = s.lastSend := rfl
@[simp] theorem clearContext_capture : (clearContext s).capture = s.capture := rfl
@[simp] theorem clearContext_inputs : (clearContext s).inputs = s.inputs := rfl
@[simp] theorem clearContext_ret : (clearContext s).ret = s.ret := rfl
@[simp] theorem clearContext_hostRead : (clearContext s).hostRead = s.hostRead := rfl
@[simp] theorem clearContext_levelOpen : (clearContext s).levelOpen = s.levelOpen := rfl
@[simp] theorem clearContext_freeCount : (clearContext s).freeCount = s.freeCount := rfl

/-! ### `shiftIn` -/

@[simp] theorem shiftIn_cfg (b : Bool) (c' : Nat) : (shiftIn b c' s).cfg = s.cfg := rfl
@[simp] theorem shiftIn_phase (b : Bool) (c' : Nat) : (shiftIn b c' s).phase = s.phase := rfl
@[simp] theorem shiftIn_cursor (b : Bool) (c' : Nat) : (shiftIn b c' s).cursor = c' := rfl
@[simp] theorem shiftIn_acc (b : Bool) (c' : Nat) : (shiftIn b c' s).acc = (s.acc.setWidth 63).concat b := rfl
@[simp] theorem shiftIn_nbits (b : Bool) (c' : Nat) : (shiftIn b c' s).nbits = s.nbits + 1 := rfl
@[simp] theorem shiftIn_isctrl (b : Bool) (c' : Nat) : (shiftIn b c' s).isctrl = s.isctrl := rfl
@[simp] theorem shiftIn_res (b : Bool) (c' : Nat) : (shiftIn b c' s).res = s.res := rfl
@[simp] theorem shiftIn_busy (b : Bool) (c' : Nat) : (shiftIn b c' s).busy = s.busy := rfl
@[simp] theorem shiftIn_trace (b : Bool) (c' : Nat) : (shiftIn b c' s).trace = s.trace := rfl
@[simp] theorem shiftIn_sending (b : Bool) (c' : Nat) : (shiftIn b c' s).sending = s.sending := rfl
@[simp] theorem shiftIn_lastSend (b : Bool) (c' : Nat) : (shiftIn b c' s).lastSend = s.lastSend := rfl
@[simp] theorem shiftIn_capture (b : Bool) (c' : Nat) : (shiftIn b c' s).capture = s.capture := rfl
@[simp] theorem shiftIn_inputs (b : Bool) (c' : Nat) : (shiftIn b c' s).inputs = s.inputs := rfl
@[simp] theorem shiftIn_ret (b : Bool) (c' : Nat) : (shiftIn b c' s).ret = s.ret := rfl
@[simp] theorem shiftIn_hostRead (b : Bool) (c' : Nat) : (shiftIn b c' s).hostRead = s.hostRead := rfl
@[simp] theorem shiftIn_levelOpen (b : Bool) (c' : Nat) : (shiftIn b c' s).levelOpen = s.levelOpen := rfl
@[simp] theorem shiftIn_freeCount (b : Bool) (c' : Nat) : (shiftIn b c' s).freeCount = s.freeCount := rfl

/-! ### `recordControl` -/

@[simp] theorem recordControl_cfg (b : ControlByte) : (recordControl b s).cfg = s.cfg := rfl
@[simp] theorem recordControl_phase (b : ControlByte) : (recordControl b s).phase = .done := rfl
@[simp] theorem recordControl_cursor (b : ControlByte) : (recordControl b s).cursor = s.cursor := rfl
@[simp] theorem recordControl_acc (b : ControlByte) : (recordControl b s).acc = s.acc := rfl
@[simp] theorem recordControl_nbits (b : ControlByte) : (recordControl b s).nbits = s.nbits := rfl
@[simp] theorem recordControl_isctrl (b : ControlByte) : (recordControl b s).isctrl = s.isctrl := rfl
@[simp] theorem recordControl_res (b : ControlByte) :
    (recordControl b s).res = { s.res with
      kind := kindControl, ctype := (typeField s.cfg.toParams b).setWidth 3, bits := s.nbits, value := b.setWidth 64 } :=
  rfl
@[simp] theorem recordControl_busy (b : ControlByte) : (recordControl b s).busy = s.busy := rfl
@[simp] theorem recordControl_trace (b : ControlByte) : (recordControl b s).trace = s.trace := rfl
@[simp] theorem recordControl_sending (b : ControlByte) : (recordControl b s).sending = s.sending := rfl
@[simp] theorem recordControl_lastSend (b : ControlByte) : (recordControl b s).lastSend = s.lastSend := rfl
@[simp] theorem recordControl_capture (b : ControlByte) : (recordControl b s).capture = s.capture := rfl
@[simp] theorem recordControl_inputs (b : ControlByte) : (recordControl b s).inputs = s.inputs := rfl
@[simp] theorem recordControl_ret (b : ControlByte) : (recordControl b s).ret = s.ret := rfl
@[simp] theorem recordControl_hostRead (b : ControlByte) : (recordControl b s).hostRead = s.hostRead := rfl
@[simp] theorem recordControl_levelOpen (b : ControlByte) : (recordControl b s).levelOpen = s.levelOpen := rfl
@[simp] theorem recordControl_freeCount (b : ControlByte) : (recordControl b s).freeCount = s.freeCount := rfl

/-! ### `recordData` -/

@[simp] theorem recordData_cfg : (recordData s).cfg = s.cfg := rfl
@[simp] theorem recordData_phase : (recordData s).phase = .done := rfl
@[simp] theorem recordData_cursor : (recordData s).cursor = s.cursor := rfl
@[simp] theorem recordData_acc : (recordData s).acc = s.acc := rfl
@[simp] theorem recordData_nbits : (recordData s).nbits = s.nbits := rfl
@[simp] theorem recordData_isctrl : (recordData s).isctrl = s.isctrl := rfl
@[simp] theorem recordData_res :
    (recordData s).res = { s.res with kind := kindData, bits := s.nbits, value := s.acc } :=
  rfl
@[simp] theorem recordData_busy : (recordData s).busy = s.busy := rfl
@[simp] theorem recordData_trace : (recordData s).trace = s.trace := rfl
@[simp] theorem recordData_sending : (recordData s).sending = s.sending := rfl
@[simp] theorem recordData_lastSend : (recordData s).lastSend = s.lastSend := rfl
@[simp] theorem recordData_capture : (recordData s).capture = s.capture := rfl
@[simp] theorem recordData_inputs : (recordData s).inputs = s.inputs := rfl
@[simp] theorem recordData_ret : (recordData s).ret = s.ret := rfl
@[simp] theorem recordData_hostRead : (recordData s).hostRead = s.hostRead := rfl
@[simp] theorem recordData_levelOpen : (recordData s).levelOpen = s.levelOpen := rfl
@[simp] theorem recordData_freeCount : (recordData s).freeCount = s.freeCount := rfl

/-! ### `clearRegisters` -/

@[simp] theorem clearRegisters_cfg : (clearRegisters s).cfg = s.cfg := rfl
@[simp] theorem clearRegisters_phase : (clearRegisters s).phase = .idle := rfl
@[simp] theorem clearRegisters_cursor : (clearRegisters s).cursor = 0 := rfl
@[simp] theorem clearRegisters_acc : (clearRegisters s).acc = 0 := rfl
@[simp] theorem clearRegisters_nbits : (clearRegisters s).nbits = 0 := rfl
@[simp] theorem clearRegisters_isctrl : (clearRegisters s).isctrl = false := rfl
@[simp] theorem clearRegisters_res : (clearRegisters s).res = ResultRegs.cleared := rfl
@[simp] theorem clearRegisters_busy : (clearRegisters s).busy = false := rfl
@[simp] theorem clearRegisters_trace : (clearRegisters s).trace = s.trace := rfl
@[simp] theorem clearRegisters_sending : (clearRegisters s).sending = [] := rfl
@[simp] theorem clearRegisters_lastSend : (clearRegisters s).lastSend = s.lastSend := rfl
@[simp] theorem clearRegisters_capture : (clearRegisters s).capture = s.capture := rfl
@[simp] theorem clearRegisters_inputs : (clearRegisters s).inputs = s.inputs := rfl
@[simp] theorem clearRegisters_ret : (clearRegisters s).ret = .nothing := rfl
@[simp] theorem clearRegisters_hostRead : (clearRegisters s).hostRead = s.hostRead := rfl
@[simp] theorem clearRegisters_levelOpen : (clearRegisters s).levelOpen = s.levelOpen := rfl
@[simp] theorem clearRegisters_freeCount : (clearRegisters s).freeCount = s.freeCount := rfl

/-! ### `powerOnReset` -/

@[simp] theorem powerOnReset_cfg : (powerOnReset s).cfg = s.cfg := rfl
@[simp] theorem powerOnReset_phase : (powerOnReset s).phase = .idle := rfl
@[simp] theorem powerOnReset_cursor : (powerOnReset s).cursor = 0 := rfl
@[simp] theorem powerOnReset_acc : (powerOnReset s).acc = 0 := rfl
@[simp] theorem powerOnReset_nbits : (powerOnReset s).nbits = 0 := rfl
@[simp] theorem powerOnReset_isctrl : (powerOnReset s).isctrl = false := rfl
@[simp] theorem powerOnReset_res : (powerOnReset s).res = ResultRegs.cleared := rfl
@[simp] theorem powerOnReset_busy : (powerOnReset s).busy = false := rfl
@[simp] theorem powerOnReset_trace : (powerOnReset s).trace = [] := rfl
@[simp] theorem powerOnReset_sending : (powerOnReset s).sending = [] := rfl
@[simp] theorem powerOnReset_lastSend : (powerOnReset s).lastSend = [] := rfl
@[simp] theorem powerOnReset_capture : (powerOnReset s).capture = s.capture := rfl
@[simp] theorem powerOnReset_inputs : (powerOnReset s).inputs = s.inputs := rfl
@[simp] theorem powerOnReset_ret : (powerOnReset s).ret = .nothing := rfl
@[simp] theorem powerOnReset_hostRead : (powerOnReset s).hostRead = s.hostRead := rfl
@[simp] theorem powerOnReset_levelOpen : (powerOnReset s).levelOpen = none := rfl
@[simp] theorem powerOnReset_freeCount : (powerOnReset s).freeCount = s.freeCount := rfl

/-! ### `cutReset` -/

@[simp] theorem cutReset_cfg : (cutReset s).cfg = s.cfg := rfl
@[simp] theorem cutReset_phase : (cutReset s).phase = .idle := rfl
@[simp] theorem cutReset_cursor : (cutReset s).cursor = 0 := rfl
@[simp] theorem cutReset_acc : (cutReset s).acc = 0 := rfl
@[simp] theorem cutReset_nbits : (cutReset s).nbits = 0 := rfl
@[simp] theorem cutReset_isctrl : (cutReset s).isctrl = false := rfl
@[simp] theorem cutReset_res : (cutReset s).res = ResultRegs.cleared := rfl
@[simp] theorem cutReset_busy : (cutReset s).busy = false := rfl
@[simp] theorem cutReset_trace : (cutReset s).trace = s.trace := rfl
@[simp] theorem cutReset_sending : (cutReset s).sending = [] := rfl
@[simp] theorem cutReset_lastSend : (cutReset s).lastSend = s.lastSend := rfl
@[simp] theorem cutReset_capture : (cutReset s).capture = s.capture := rfl
@[simp] theorem cutReset_inputs : (cutReset s).inputs = s.inputs := rfl
@[simp] theorem cutReset_ret : (cutReset s).ret = .nothing := rfl
@[simp] theorem cutReset_hostRead : (cutReset s).hostRead = s.hostRead := rfl
@[simp] theorem cutReset_levelOpen : (cutReset s).levelOpen = some s.freeCount := rfl
@[simp] theorem cutReset_freeCount : (cutReset s).freeCount = s.freeCount + 1 := rfl

/-! ### `atCtrlCheck` -/

@[simp] theorem atCtrlCheck_cfg (b : ControlByte) : (atCtrlCheck b s).cfg = s.cfg := rfl
@[simp] theorem atCtrlCheck_phase (b : ControlByte) : (atCtrlCheck b s).phase = .ctrlCheck := rfl
@[simp] theorem atCtrlCheck_cursor (b : ControlByte) : (atCtrlCheck b s).cursor = 3 + 2 * s.cfg.ctrlBits := rfl
@[simp] theorem atCtrlCheck_acc (b : ControlByte) :
    (atCtrlCheck b s).acc = (ctrlPayload s.cfg.toParams b).setWidth 64 := rfl
@[simp] theorem atCtrlCheck_nbits (b : ControlByte) : (atCtrlCheck b s).nbits = BitVec.ofNat 7 s.cfg.ctrlBits := rfl
@[simp] theorem atCtrlCheck_isctrl (b : ControlByte) : (atCtrlCheck b s).isctrl = true := rfl
@[simp] theorem atCtrlCheck_res (b : ControlByte) : (atCtrlCheck b s).res = ResultRegs.cleared := rfl
@[simp] theorem atCtrlCheck_busy (b : ControlByte) : (atCtrlCheck b s).busy = true := rfl
@[simp] theorem atCtrlCheck_trace (b : ControlByte) : (atCtrlCheck b s).trace = s.trace := rfl
@[simp] theorem atCtrlCheck_sending (b : ControlByte) : (atCtrlCheck b s).sending = s.sending := rfl
@[simp] theorem atCtrlCheck_lastSend (b : ControlByte) : (atCtrlCheck b s).lastSend = s.lastSend := rfl
@[simp] theorem atCtrlCheck_capture (b : ControlByte) : (atCtrlCheck b s).capture = s.capture := rfl
@[simp] theorem atCtrlCheck_inputs (b : ControlByte) : (atCtrlCheck b s).inputs = s.inputs := rfl
@[simp] theorem atCtrlCheck_ret (b : ControlByte) : (atCtrlCheck b s).ret = s.ret := rfl
@[simp] theorem atCtrlCheck_hostRead (b : ControlByte) : (atCtrlCheck b s).hostRead = s.hostRead := rfl
@[simp] theorem atCtrlCheck_levelOpen (b : ControlByte) : (atCtrlCheck b s).levelOpen = s.levelOpen := rfl
@[simp] theorem atCtrlCheck_freeCount (b : ControlByte) : (atCtrlCheck b s).freeCount = s.freeCount := rfl

end Sys2Proof.Machine
end

