-- ==== Sys2Proof/Laws/Ops.lean ====
section
/-! SUPPORT. One lemma per shared operation: all that it can do. -/

namespace Sys2Proof.Machine

/-! ### The matcher -/

/-- The durations that match `e` are a closed interval about it (40_timing_codec.md R76, R77). -/
theorem withinTolerance_iff {t : Timing} (h : t.tolDen ≠ 0) (a e : Micros) :
    withinTolerance t a e = true ↔ e - windowReach t e ≤ a ∧ a ≤ e + windowReach t e := by
  rw [withinTolerance, decide_eq_true_iff, scaledDeviation, Nat.mul_comm, ← Nat.le_div_iff_mul_le (by omega)]
  change _ ≤ windowReach t e ↔ _
  unfold Micros at *
  omega

/-- Two windows meet exactly where some duration matches both expected values. -/
theorem windowsMeet_iff (t : Timing) (e e' : Micros) :
    windowsMeet t e e' = true ↔ ∃ a, withinTolerance t a e = true ∧ withinTolerance t a e' = true := by
  rw [windowsMeet, decide_eq_true_iff]
  by_cases h : t.tolDen = 0
  · simp [h, withinTolerance, scaledDeviation]
  · simp only [h, false_or, withinTolerance_iff h]
    unfold Micros at *
    exact ⟨fun _ => ⟨max (e - windowReach t e) (e' - windowReach t e'), by omega⟩, fun ⟨_, _⟩ => by omega⟩

/-! ### Emission -/

theorem emitAll_nil (s : State) : emitAll [] s = s := rfl

theorem emitAll_cons (p : Pulse) (ps : List Pulse) (s : State) : emitAll (p :: ps) s = emitAll ps (emit p s) := rfl

/-- Emitting a sequence appends it to TRACE; any pulse makes the emitter's level known. -/
theorem emitAll_eq (ps : List Pulse) (s : State) :
    emitAll ps s = { s with trace := s.trace ++ ps, levelOpen := if ps = [] then s.levelOpen else none } := by
  induction ps generalizing s with
  | nil => simp [emitAll_nil]
  | cons p ps ih =>
    rw [emitAll_cons, ih]
    simp [emit]

/-- A SEND is refused while BUSY = 1; otherwise it completes with its pulses on TRACE. -/
theorem sendCommand_eq (ps : List Pulse) (s : State) :
    sendCommand ps s =
      if s.busy then .refused .commandWhileBusy
      else .next { s with
        trace := s.trace ++ ps
        lastSend := ps
        levelOpen := if ps = [] then s.levelOpen else none } := by
  unfold sendCommand
  split
  · rfl
  · rename_i h
    rw [emitAll_eq]
    simp only [accept, completeSend]
    have : s.busy = false := by simpa using h
    rw [← this]

/-! ### Samples -/

theorem sampleAt_eq_ok {xs : List Micros} {i : Nat} (h : i < xs.length) : sampleAt xs i = .ok (xs.getD i 0) := by
  simp [sampleAt, List.getD, h]

theorem pairAt_eq_ok {xs : List Micros} {i : Nat} (h : i + 1 < xs.length) :
    pairAt xs i = .ok (xs.getD i 0, xs.getD (i + 1) 0) := by
  simp [pairAt, sampleAt_eq_ok h, sampleAt_eq_ok (Nat.lt_of_succ_lt h)]

/-- GETBIT always answers: the closed form's bit, and the cursor advanced by 2 (42_decoder.md R95). -/
theorem getbit_eq (t : Timing) (xs : List Micros) (c : Nat) : getbit t xs c = .ok (bitAt t xs c, c + 2) := by
  unfold getbit bitAt
  split
  · rename_i h
    have : ¬ (c + 1 < xs.length) := by omega
    simp [this]
  · rename_i h
    have hc : c + 1 < xs.length := by omega
    rw [pairAt_eq_ok hc]
    simp only [hc, decide_true, Bool.true_and]
    split
    · rename_i h1; rw [h1]
    · rename_i h1
      rw [Bool.eq_false_iff.mpr h1]
      split <;> rfl

/-! ### The state machine -/

theorem readBitRule_eq (s : State) :
    readBitRule s = .ok (shiftIn (bitAt s.cfg.timing s.capture s.cursor) (s.cursor + 2) s) := by
  simp [readBitRule, getbit_eq]

theorem decodeRun_zero (s : State) : decodeRun 0 s = .ok s := rfl

theorem decodeRun_idle {n : Nat} {s : State} (h : s.phase = .idle) : decodeRun n s = .ok s := by
  cases n <;> simp [decodeRun, h]

/-- One rule, then the rest of the run. -/
theorem decodeRun_succ {n : Nat} {s s' : State} (h : s.phase ≠ .idle) (hr : decodeRule s = .ok s') :
    decodeRun (n + 1) s = decodeRun n s' := by
  rw [decodeRun]
  split
  · contradiction
  · rw [hr]

/-! ### The closed form's sum -/

theorem bitSum_zero (t : Timing) (xs : List Micros) : bitSum t xs 0 = 0 := rfl

/-- One more bit doubles the sum and adds the bit, most significant first. -/
theorem bitSum_succ (t : Timing) (xs : List Micros) (n : Nat) :
    bitSum t xs (n + 1) = 2 * bitSum t xs n + (bitAt t xs (3 + 2 * n)).toNat := by
  unfold bitSum
  rw [List.range_succ, List.map_append, List.sum_append, ← List.sum_map_mul_left]
  congr 1
  · congr 1
    apply List.map_congr_left
    intro k hk
    have hk : k < n := List.mem_range.mp hk
    have : n + 1 - 1 - k = (n - 1 - k) + 1 := by omega
    rw [this, Nat.shiftLeft_eq, Nat.shiftLeft_eq, Nat.pow_succ]
    ring
  · simp

theorem bitSum_lt (t : Timing) (xs : List Micros) (n : Nat) : bitSum t xs n < 2 ^ n := by
  induction n with
  | zero => simp [bitSum_zero]
  | succ n ih =>
    rw [bitSum_succ, Nat.pow_succ]
    have := Bool.toNat_le (bitAt t xs (3 + 2 * n))
    omega

/-- Shifting a bit into ACC doubles it and adds the bit (10_state.md R19). -/
theorem concat_ofNat (n : Nat) (b : Bool) :
    ((BitVec.ofNat 64 n).setWidth 63).concat b = BitVec.ofNat 64 (2 * n + b.toNat) := by
  apply BitVec.eq_of_toNat_eq
  rw [BitVec.toNat_concat]
  simp only [BitVec.toNat_setWidth, BitVec.toNat_ofNat]
  have := Bool.toNat_le b
  omega

end Sys2Proof.Machine
end

