-- ==== Sys2Proof/Laws/Decoder.lean ====
section
/-! SUPPORT. The rules of the decode state machine, one lemma per rule or run of rules. -/

namespace Sys2Proof.Machine

/-! ### The control byte -/

/-- The values that name no control code (30_encoding.md R61). -/
theorem ofType_eq_none {w : Nat} (ty : BitVec w) : ControlCode.ofType ty = none ↔ ty.toNat ∉ [1, 2, 3, 4] := by
  unfold ControlCode.ofType
  split <;> simp_all

/-- The type value of each code (30_encoding.md R60). -/
theorem ofType_eq_some {w : Nat} (ty : BitVec w) (c : ControlCode) :
    ControlCode.ofType ty = some c ↔ ty.toNat = c.type.toNat := by
  unfold ControlCode.ofType
  cases c <;> split <;> simp_all [ControlCode.type]

/-- The control payload as a number: the low `CTRL_BITS` bits. -/
theorem ctrlPayload_toNat {w : Nat} (c : Config) (v : BitVec w) :
    (ctrlPayload c.toParams v).toNat = v.toNat % 2 ^ c.ctrlBits := by
  have h : 2 ^ c.ctrlBits ≤ 2 ^ 8 := Nat.pow_le_pow_right (by decide) c.ctrlBits_le
  have := Nat.mod_lt v.toNat (Nat.two_pow_pos c.ctrlBits)
  simp only [ctrlPayload, BitVec.toNat_setWidth]
  exact Nat.mod_eq_of_lt (by omega)

/-- The prefix field as a number: what stands above the type field. -/
theorem prefixField_toNat (c : Config) (b : ControlByte) :
    (prefixField c.toParams b).toNat = b.toNat % 2 ^ c.ctrlBits / 2 ^ c.ctrlTypeBits := by
  rw [prefixField, BitVec.toNat_ushiftRight, ctrlPayload_toNat, Nat.shiftRight_eq_div_pow]

/-- The type field as a number: the low `CTRL_TYPE_BITS` bits. -/
theorem typeField_toNat (c : Config) (b : ControlByte) :
    (typeField c.toParams b).toNat = b.toNat % 2 ^ c.ctrlTypeBits := by
  have h8 : c.ctrlTypeBits ≤ 8 := by have := c.ctrlBits_le; have := c.ctrlBits_split; omega
  have h : 2 ^ c.ctrlTypeBits ≤ 2 ^ 8 := Nat.pow_le_pow_right (by decide) h8
  have := Nat.mod_lt b.toNat (Nat.two_pow_pos c.ctrlTypeBits)
  simp only [typeField, BitVec.toNat_setWidth]
  exact Nat.mod_eq_of_lt (by omega)

/-- The control byte as a number: the prefix above the type. -/
theorem ctrlByte_toNat (c : Config) (code : ControlCode) :
    (ctrlByte c.toParams code).toNat = c.ctrlPrefix.toNat * 2 ^ c.ctrlTypeBits + code.type.toNat := by
  have ht := c.ctrlTypeBits_le
  have hs := c.ctrlBits_split
  have h8 := c.ctrlBits_le
  have hty : code.type.toNat < 2 ^ c.ctrlTypeBits :=
    Nat.lt_of_lt_of_le code.type.isLt (Nat.pow_le_pow_right (by decide) ht)
  have hp : (c.ctrlPrefix.toNat + 1) * 2 ^ c.ctrlTypeBits ≤ 2 ^ 8 := by
    calc (c.ctrlPrefix.toNat + 1) * 2 ^ c.ctrlTypeBits
        ≤ 2 ^ c.ctrlPrefixBits * 2 ^ c.ctrlTypeBits := Nat.mul_le_mul_right _ c.ctrlPrefix_lt
      _ = 2 ^ c.ctrlBits := by rw [← Nat.pow_add, hs]
      _ ≤ 2 ^ 8 := Nat.pow_le_pow_right (by decide) h8
  rw [Nat.add_mul, Nat.one_mul] at hp
  have h5 := c.ctrlPrefix.isLt
  have h3 := code.type.isLt
  rw [ctrlByte, BitVec.toNat_or, BitVec.toNat_shiftLeft, BitVec.toNat_setWidth, BitVec.toNat_setWidth,
    Nat.mod_eq_of_lt (a := c.ctrlPrefix.toNat) (by omega), Nat.mod_eq_of_lt (a := code.type.toNat) (by omega),
    Nat.shiftLeft_eq, Nat.mod_eq_of_lt (by omega), Nat.mul_comm]
  exact (Nat.two_pow_add_eq_or_of_lt hty _).symm

/-- What a received byte names, in numbers: first the prefix, then the type (42_decoder.md R97). -/
theorem decodeCtrlByte_eq (c : Config) (b : ControlByte) :
    decodeCtrlByte c.toParams b =
      if b.toNat % 2 ^ c.ctrlBits / 2 ^ c.ctrlTypeBits ≠ c.ctrlPrefix.toNat then .error .badPrefix
      else
        match ControlCode.ofType (typeField c.toParams b) with
        | some code => .ok code
        | none      => .error .badType := by
  have h : prefixField c.toParams b = c.ctrlPrefix.setWidth 8 ↔
      b.toNat % 2 ^ c.ctrlBits / 2 ^ c.ctrlTypeBits = c.ctrlPrefix.toNat := by
    rw [← prefixField_toNat, ← BitVec.toNat_inj, BitVec.toNat_setWidth,
      Nat.mod_eq_of_lt (b := 2 ^ 8) (by have := c.ctrlPrefix.isLt; omega)]
  exact if_congr (not_congr h) rfl rfl

/-! ### Rules -/

/-- CTRL_CHECK is one of two failures or a recorded control code, in the order of 42_decoder.md R97. -/
theorem ctrlCheckRule_eq (s : State) : ctrlCheckRule s =
    .ok (if s.acc.toNat % 2 ^ s.cfg.ctrlBits / 2 ^ s.cfg.ctrlTypeBits ≠ s.cfg.ctrlPrefix.toNat
        then raiseFail .prefixMismatch s
      else if s.acc.toNat % 2 ^ s.cfg.ctrlTypeBits ∉ [1, 2, 3, 4] then raiseFail .typeInvalid s
      else recordControl (ctrlPayload s.cfg.toParams s.acc) s) := by
  have hle : s.cfg.ctrlTypeBits ≤ s.cfg.ctrlBits := by have := s.cfg.ctrlBits_split; omega
  have hty : (typeField s.cfg.toParams (ctrlPayload s.cfg.toParams s.acc)).toNat =
      s.acc.toNat % 2 ^ s.cfg.ctrlTypeBits := by
    rw [typeField_toNat, ctrlPayload_toNat, Nat.mod_mod_of_dvd _ (Nat.pow_dvd_pow 2 hle)]
  unfold ctrlCheckRule
  rw [decodeCtrlByte_eq, ctrlPayload_toNat, Nat.mod_mod]
  split_ifs with hp ht
  · rfl
  · cases hx : ControlCode.ofType (typeField s.cfg.toParams (ctrlPayload s.cfg.toParams s.acc)) with
    | none => exact absurd ht (hty ▸ (ofType_eq_none _).mp hx)
    | some c => rfl
  · rw [(ofType_eq_none _).mpr (hty ▸ ht)]

/-- The step at CTRL_CHECK. -/
theorem decodeRule_ctrlCheck {s : State} (h : s.phase = .ctrlCheck) : decodeRule s = ctrlCheckRule s := by
  simp [decodeRule, h]

/-- A rule of the state machine never touches the ports or the configuration, and BUSY stays until PHASE is IDLE. -/
theorem decodeRule_frame (s u : State) (h : decodeRule s = .ok u) :
    u.cfg = s.cfg ∧ u.trace = s.trace ∧ u.capture = s.capture ∧ u.inputs = s.inputs ∧
      (u.phase ≠ .idle → u.busy = s.busy) := by
  unfold decodeRule at h
  split at h
  · injection h with h; subst h; simp
  · unfold resetRule at h; injection h with h; subst h; simp
  · unfold lengthCheckRule at h; split at h <;> (injection h with h; subst h; simp)
  · unfold headerCheckRule at h; split at h
    · cases h
    · split at h <;> (injection h with h; subst h; simp)
  · unfold discriminateRule at h; split at h
    · cases h
    · injection h with h; subst h; simp
  · unfold ctrlReadRule at h; rw [readBitRule_eq] at h; split at h <;> (injection h with h; subst h; simp)
  · rw [ctrlCheckRule_eq] at h; injection h with h; subst h; split_ifs <;> simp
  · unfold dataReadRule at h; rw [readBitRule_eq] at h; split at h <;> (injection h with h; subst h; simp)
  · injection h with h; subst h; simp

/-! ### Runs -/

/-- The reads of DATA_READ and what follows them: from `k` bits read, `j` more, then the message recorded and DONE
(42_decoder.md R98, R99). -/
theorem decodeRun_dataRead (s : State) (k j : Nat) (hp : s.phase = .dataRead)
    (hc : s.cursor = 3 + 2 * k) (hn : s.nbits = BitVec.ofNat 7 k)
    (ha : s.acc = BitVec.ofNat 64 (bitSum s.cfg.timing s.capture k))
    (hj : k + j = dataCount s.cfg s.capture) (m : Nat) :
    decodeRun (j + (2 + m)) s = .ok { s with
      cursor := 3 + 2 * dataCount s.cfg s.capture
      nbits := BitVec.ofNat 7 (dataCount s.cfg s.capture)
      acc := BitVec.ofNat 64 (bitSum s.cfg.timing s.capture (dataCount s.cfg s.capture))
      res := { s.res with
        kind := 0
        bits := BitVec.ofNat 7 (dataCount s.cfg s.capture)
        value := BitVec.ofNat 64 (bitSum s.cfg.timing s.capture (dataCount s.cfg s.capture))
        status := 1
        proto := s.cfg.protocolId }
      phase := .idle
      busy := false } := by
  induction j generalizing s k with
  | zero =>
    have hcard : dataCount s.cfg s.capture = min s.cfg.maxDataBits ((s.capture.length - 3) / 2) := rfl
    have hm := s.cfg.maxDataBits_le
    have hw := s.cfg.wValue_le
    have hnt : s.nbits.toNat = k := by rw [hn, BitVec.toNat_ofNat]; omega
    have hk : k = dataCount s.cfg s.capture := by omega
    have h1 : decodeRule s = .ok (recordData s) := by
      have : ¬ (s.cursor + 1 < s.capture.length ∧ s.nbits.toNat < s.cfg.maxDataBits) := by omega
      simp [decodeRule, hp, dataReadRule, this]
    rw [show 0 + (2 + m) = (m + 1) + 1 by omega, decodeRun_succ (by simp [hp]) h1,
      decodeRun_succ (by simp) (show decodeRule (recordData s) = .ok (finish (recordData s)) by simp [decodeRule]),
      decodeRun_idle (by simp)]
    simp [finish, recordData, hc, hn, ha, hk, kindData, statusOk]
  | succ j ih =>
    have hcard : dataCount s.cfg s.capture = min s.cfg.maxDataBits ((s.capture.length - 3) / 2) := rfl
    have hm := s.cfg.maxDataBits_le
    have hw := s.cfg.wValue_le
    have hnt : s.nbits.toNat = k := by rw [hn, BitVec.toNat_ofNat]; omega
    have h1 : decodeRule s = .ok (shiftIn (bitAt s.cfg.timing s.capture s.cursor) (s.cursor + 2) s) := by
      have : s.cursor + 1 < s.capture.length ∧ s.nbits.toNat < s.cfg.maxDataBits := by omega
      simp [decodeRule, hp, dataReadRule, this, readBitRule_eq]
    rw [show j + 1 + (2 + m) = (j + (2 + m)) + 1 by omega, decodeRun_succ (by simp [hp]) h1]
    rw [ih _ (k + 1) (by simp [hp]) (by simp [hc]; omega) (by simp [hn]; rw [BitVec.ofNat_add]) ?_
      (by simp only [shiftIn_cfg, shiftIn_capture]; omega)]
    · simp [shiftIn]
    · simp only [shiftIn_acc, shiftIn_cfg, shiftIn_capture, ha, concat_ofNat, bitSum_succ, hc]

/-- The reads of CTRL_READ: from `k` bits read, the rest of the `CTRL_BITS` (42_decoder.md R96). -/
theorem decodeRun_ctrlRead (s : State) (k j : Nat) (hp : s.phase = .ctrlRead)
    (hc : s.cursor = 3 + 2 * k) (hn : s.nbits = BitVec.ofNat 7 k)
    (ha : s.acc = BitVec.ofNat 64 (bitSum s.cfg.timing s.capture k))
    (hj : k + j = s.cfg.ctrlBits) (m : Nat) :
    decodeRun (j + (1 + m)) s = decodeRun m { s with
      cursor := 3 + 2 * s.cfg.ctrlBits
      nbits := BitVec.ofNat 7 s.cfg.ctrlBits
      acc := BitVec.ofNat 64 (bitSum s.cfg.timing s.capture s.cfg.ctrlBits)
      phase := .ctrlCheck } := by
  induction j generalizing s k with
  | zero =>
    have h8 := s.cfg.ctrlBits_le
    have hnt : s.nbits.toNat = k := by rw [hn, BitVec.toNat_ofNat]; omega
    have hk : k = s.cfg.ctrlBits := by omega
    have h1 : decodeRule s = .ok { s with phase := .ctrlCheck } := by
      simp [decodeRule, hp, ctrlReadRule, hnt, hk]
    rw [show 0 + (1 + m) = m + 1 by omega, decodeRun_succ (by simp [hp]) h1]
    simp [hc, hn, ha, hk]
  | succ j ih =>
    have h8 := s.cfg.ctrlBits_le
    have hnt : s.nbits.toNat = k := by rw [hn, BitVec.toNat_ofNat]; omega
    have h1 : decodeRule s = .ok (shiftIn (bitAt s.cfg.timing s.capture s.cursor) (s.cursor + 2) s) := by
      have : s.nbits.toNat < s.cfg.ctrlBits := by omega
      simp [decodeRule, hp, ctrlReadRule, this, readBitRule_eq]
    rw [show j + 1 + (1 + m) = (j + (1 + m)) + 1 by omega, decodeRun_succ (by simp [hp]) h1]
    rw [ih _ (k + 1) (by simp [hp]) (by simp [hc]; omega) (by simp [hn]; rw [BitVec.ofNat_add]) ?_
      (by simp only [shiftIn_cfg]; omega)]
    · simp [shiftIn]
    · simp only [shiftIn_acc, shiftIn_cfg, shiftIn_capture, ha, concat_ofNat, bitSum_succ, hc]

end Sys2Proof.Machine
end

