-- ==== Sys2Proof/Laws/PerInstr.lean ====
section
/-! SUPPORT. Statements for all instructions, made per instruction. -/

namespace Sys2Proof.Laws.CommandWordCanonical

/-- The encoder writes only well-formed command words: 0 in bits 7..5 and in every unused field (30_encoding.md R70,
R71). -/
def Statement (i : Instr) : Prop :=
  ∀ (c : Config) (w : CommandWord), encode c i = some (.command w) → CommandWord.wellFormed w = true

/-- A command word with every unused field 0 is well-formed, whatever `VALUE` and `COUNT` are. -/
theorem sendWord_wellFormed (v : DataValue) (n : BitVec 8) :
    CommandWord.wellFormed (encodeCommand (.sendData v n)) = true := by
  have h0 : (encodeCommand (.sendData v n)).extractLsb' 0 2 = 0b10#2 := by
    apply BitVec.eq_of_getLsbD_eq
    intro i hi
    rw [BitVec.getLsbD_extractLsb']
    simp only [encodeCommand, commandWord, BitVec.getLsbD_append]
    have : i = 0 ∨ i = 1 := by omega
    rcases this with rfl | rfl <;> simp
  have h2 : (encodeCommand (.sendData v n)).extractLsb' 2 3 = 0#3 := by
    apply BitVec.eq_of_getLsbD_eq
    intro i hi
    rw [BitVec.getLsbD_extractLsb']
    simp only [encodeCommand, commandWord, BitVec.getLsbD_append]
    have : i = 0 ∨ i = 1 ∨ i = 2 := by omega
    rcases this with rfl | rfl | rfl <;> simp
  have h5 : (encodeCommand (.sendData v n)).extractLsb' 5 3 = 0#3 := by
    apply BitVec.eq_of_getLsbD_eq
    intro i hi
    rw [BitVec.getLsbD_extractLsb']
    simp only [encodeCommand, commandWord, BitVec.getLsbD_append]
    have : i = 0 ∨ i = 1 ∨ i = 2 := by omega
    rcases this with rfl | rfl | rfl <;> simp
  unfold CommandWord.wellFormed
  rw [h0, h2, h5]
  rfl

theorem sendcStart : Statement .sendcStart := by
  intro _ w h; cases h; decide

theorem sendcEnd : Statement .sendcEnd := by
  intro _ w h; cases h; decide

theorem sendcAck : Statement .sendcAck := by
  intro _ w h; cases h; decide

theorem sendcNack : Statement .sendcNack := by
  intro _ w h; cases h; decide

theorem sendd (v : DataValue) (n : BitVec 8) : Statement (.sendd v n) := by
  intro _ w h; cases h; exact sendWord_wellFormed v n

theorem decode : Statement .decode := by
  intro _ w h; cases h; decide

theorem matchOp (a e : Micros) : Statement (.matchOp a e) := by
  intro _ w h; cases h

theorem sendBit (b : Bool) : Statement (.sendBit b) := by
  intro _ w h; cases h

theorem sendHdr : Statement .sendHdr := by
  intro _ w h; cases h

theorem sendEnd : Statement .sendEnd := by
  intro _ w h; cases h

theorem getBit (k : Nat) : Statement (.getBit k) := by
  intro _ w h; cases h

theorem wireHeader : Statement .wireHeader := by
  intro _ w h; cases h

theorem wireBit1 : Statement .wireBit1 := by
  intro _ w h; cases h

theorem wireBit0 : Statement .wireBit0 := by
  intro _ w h; cases h

theorem wireEnd : Statement .wireEnd := by
  intro _ w h; cases h

theorem ctrlStart : Statement .ctrlStart := by
  intro _ w h; cases h

theorem ctrlEnd : Statement .ctrlEnd := by
  intro _ w h; cases h

theorem ctrlAck : Statement .ctrlAck := by
  intro _ w h; cases h

theorem ctrlNack : Statement .ctrlNack := by
  intro _ w h; cases h

end Sys2Proof.Laws.CommandWordCanonical
end

