-- ==== Sys2Proof/Tests/Slice0.lean ====
section
/-! SUPPORT. Small tests: their expected results are the vectors of 95_test_vectors.md (named in the comments) or the
tables of 30_encoding.md. After them, one witness for each statement that has hypotheses. -/

namespace Sys2Proof.Tests

open Sys2Proof.Machine

/-- A configuration with every open parameter chosen: `CAPTURE_MAX` 200, 16-bit samples, 8-bit cursor, protocol 7. -/
def cfg : Config :=
  Config.ofParams (Params.normative 200 16 8 7 3)
    (Params.normative_valid (by decide) (by decide) (by decide) (by decide))

/-- The state after power-on under `cfg`. -/
def s0 : State := State.resetWith cfg

/-- Another set of constants (00_scope.md R8): a value of 32 bits, at most 32 data bits, a control payload of 7 bits with the
prefix `1010`, and captures of fewer than 7 samples too short. -/
def otherParams : Params :=
  { Params.normative 200 16 8 7 3 with
    wValue := 32, maxDataBits := 32, ctrlBits := 7, ctrlPrefixBits := 4, ctrlPrefix := 0b1010, minCaptureLen := 7 }

/-- The configuration with those constants. -/
def otherCfg : Config := Config.ofParams otherParams (by decide)

/-- `s0` with a capture at the port. -/
def cap (xs : List Micros) : State := { s0 with capture := xs }

/-- `s0` with something presented. -/
def given (i : Input) : State := { s0 with inputs := [i] }

/-- A DECODE in progress in a phase. -/
def inPhase (p : Phase) (xs : List Micros) : State := { cap xs with busy := true, phase := p }

/-- The result registers of an outcome. -/
def resOf (o : Host.Outcome State Fault Refusal) : Option ResultRegs :=
  match o with
  | .next s    => some s.res
  | .fault _   => none
  | .refused _ => none

/-- TRACE of an outcome. -/
def traceOf (o : Host.Outcome State Fault Refusal) : Option (List Pulse) :=
  match o with
  | .next s    => some s.trace
  | .fault _   => none
  | .refused _ => none

/-- What an internal operation answered. -/
def retOf (o : Host.Outcome State Fault Refusal) : Option OpReturn :=
  match o with
  | .next s    => some s.ret
  | .fault _   => none
  | .refused _ => none

/-- The refusal of an outcome. -/
def refusalIn (o : Host.Outcome State Fault Refusal) : Option Refusal :=
  match o with
  | .next _    => none
  | .fault _   => none
  | .refused r => some r

/-! ### Well-formedness: each check refuses its ill-formed term -/

theorem test_wellFormed_refuses_match_of_no_constant : (Instr.matchOp 560 561).wellFormed cfg = false := by decide
theorem test_wellFormed_takes_match_of_a_constant : (Instr.matchOp 1 1690).wellFormed cfg = true := by decide
theorem test_wellFormed_refuses_a_cursor_too_wide : (Instr.getBit 256).wellFormed cfg = false := by decide
theorem test_wellFormed_takes_the_largest_cursor : (Instr.getBit 255).wellFormed cfg = true := by decide
theorem test_word_with_reserved_bits_is_ill_formed : CommandWord.wellFormed 0xED = false := by decide
theorem test_send_control_with_a_count_is_ill_formed : CommandWord.wellFormed 0x10D = false := by decide
theorem test_send_data_with_a_ctype_is_ill_formed : CommandWord.wellFormed 0x350806 = false := by decide
theorem test_decode_with_a_value_is_ill_formed : CommandWord.wellFormed 0x10003 = false := by decide
theorem test_reserved_op_is_ill_formed : CommandWord.wellFormed 0x0 = false := by decide

/-! ### Decoding of words written out from 30_encoding.md R54, R61, R65 -/

/-- `OP = 01`, `CTYPE = 001`. -/
theorem test_decode_sendcStart : decode (0#75 ++ 0b001#3 ++ 0b01#2) = .ok .sendcStart := by decide
/-- `OP = 01`, `CTYPE = 010`. -/
theorem test_decode_sendcEnd : decode (0#75 ++ 0b010#3 ++ 0b01#2) = .ok .sendcEnd := by decide
/-- V-W5: bits 7..5 are ignored. -/
theorem test_decode_sendcAck : decode (0#72 ++ 0b111#3 ++ 0b011#3 ++ 0b01#2) = .ok .sendcAck := by decide
/-- `OP = 01`, `CTYPE = 100`. -/
theorem test_decode_sendcNack : decode (0#75 ++ 0b100#3 ++ 0b01#2) = .ok .sendcNack := by decide
/-- V-W6: `VALUE = 0x35`, `COUNT = 8`, `OP = 10`. -/
theorem test_decode_sendd : decode (0x35#64 ++ 0b00001000#8 ++ 0b000#3 ++ 0b000#3 ++ 0b10#2) = .ok (.sendd 0x35 8) := by
  decide
/-- V-W10: every other field is ignored. -/
theorem test_decode_decode : decode (BitVec.allOnes 78 ++ 0b11#2) = .ok .decode := by decide
/-- V-W3. -/
theorem test_decode_refuses_ctype_5 : decode (0#75 ++ 0b101#3 ++ 0b01#2) = .error (.reservedCtype 5) := by decide
theorem test_byte_start : decodeEncoded cfg (.byte 0b10100001) = .ok .ctrlStart := by decide
theorem test_byte_end : decodeEncoded cfg (.byte 0b10100010) = .ok .ctrlEnd := by decide
theorem test_byte_ack : decodeEncoded cfg (.byte 0b10100011) = .ok .ctrlAck := by decide
theorem test_byte_nack : decodeEncoded cfg (.byte 0b10100100) = .ok .ctrlNack := by decide
theorem test_byte_prefix_before_type : decodeEncoded cfg (.byte 0b10110000) = .error .badPrefix := by decide
theorem test_byte_bad_type : decodeEncoded cfg (.byte 0b10100101) = .error .badType := by decide
theorem test_symbol_header : decodeEncoded cfg (.symbol 9000 4500) = .ok .wireHeader := by decide
theorem test_symbol_bit1 : decodeEncoded cfg (.symbol 560 1690) = .ok .wireBit1 := by decide
theorem test_symbol_bit0 : decodeEncoded cfg (.symbol 560 560) = .ok .wireBit0 := by decide
theorem test_symbol_end : decodeEncoded cfg (.symbol 560 0) = .ok .wireEnd := by decide
theorem test_symbol_none : decodeEncoded cfg (.symbol 560 5000) = .error .noSymbol := by decide
theorem test_table_word_byte : decodeTableWord 8 0xA3 = some .ctrlAck := by decide
theorem test_table_word_command : decodeTableWord 80 0x350802 = some (.sendd 0x35 8) := by decide

/-! ### The instructions, one step each -/

/-- W2: SENDC ACK. -/
theorem test_sendcAck_trace : traceOf (exec .sendcAck s0) = some [.mark 9000, .space 4500, .mark 560, .space 1690,
    .mark 560, .space 560, .mark 560, .space 1690, .mark 560, .space 560, .mark 560, .space 560, .mark 560, .space 560,
    .mark 560, .space 1690, .mark 560, .space 1690, .mark 560, .space 0] := by decide
/-- V-SC1, V-SC2 and V-SC4 differ from Ack in the last three bit pairs. -/
theorem test_sendcStart_tail : (traceOf (exec .sendcStart s0)).map (·.drop 12) = some [.mark 560, .space 560,
    .mark 560, .space 560, .mark 560, .space 1690, .mark 560, .space 0] := by decide
theorem test_sendcEnd_tail : (traceOf (exec .sendcEnd s0)).map (·.drop 12) = some [.mark 560, .space 560,
    .mark 560, .space 1690, .mark 560, .space 560, .mark 560, .space 0] := by decide
theorem test_sendcNack_tail : (traceOf (exec .sendcNack s0)).map (·.drop 12) = some [.mark 560, .space 1690,
    .mark 560, .space 560, .mark 560, .space 560, .mark 560, .space 0] := by decide
/-- W3: SENDD 0b1011, 4. -/
theorem test_sendd_trace : traceOf (exec (.sendd 0b1011 4) s0) = some [.mark 9000, .space 4500, .mark 560, .space 1690,
    .mark 560, .space 560, .mark 560, .space 1690, .mark 560, .space 1690, .mark 560, .space 0] := by decide
/-- V-SD2: more than 64 bits is a silent no-op. -/
theorem test_sendd_over_64 : traceOf (exec (.sendd 0xF 70) s0) = some [] := by decide
/-- V-D15: Ack with every sample at a window edge. -/
theorem test_decode_jittered_ack : resOf (exec .decode (cap [30000, 11250, 3375, 420, 2112, 700, 700, 420, 1268, 700,
    420, 420, 700, 700, 420, 420, 1268, 700, 2112, 560])) = some ⟨1, 1, 3, 8, 0xA3, 7⟩ := by decide
/-- V-D11: a mangled pair reads 0. -/
theorem test_decode_mangled_pair : resOf (exec .decode (cap [30000, 9000, 4500, 560, 560, 560, 1690, 560, 5000, 560,
    1690, 560])) = some ⟨1, 0, 0, 4, 5, 7⟩ := by decide
/-- V-M2 and V-M4. -/
theorem test_match_low_edge : retOf (exec (.matchOp 1268 1690) s0) = some (.matched true) := by decide
theorem test_match_over : retOf (exec (.matchOp 2113 1690) s0) = some (.matched false) := by decide
/-- V-E1 to V-E4. -/
theorem test_sendBit_zero : traceOf (exec (.sendBit false) s0) = some [.mark 560, .space 560] := by decide
theorem test_sendBit_one : traceOf (exec (.sendBit true) s0) = some [.mark 560, .space 1690] := by decide
theorem test_sendHdr : traceOf (exec .sendHdr s0) = some [.mark 9000, .space 4500] := by decide
theorem test_sendEnd : traceOf (exec .sendEnd s0) = some [.mark 560, .space 0] := by decide
/-- V-G1 and V-G5. -/
theorem test_getBit_jittered : retOf (exec (.getBit 5) (cap [0, 0, 0, 0, 0, 560, 1700])) = some (.gotBit true 7) := by
  decide
theorem test_getBit_past_the_end : retOf (exec (.getBit 5) (cap [0, 0, 0, 0, 0, 560])) = some (.gotBit false 7) := by
  decide
/-- The rows of 30_encoding.md R54. -/
theorem test_wireHeader : traceOf (exec .wireHeader s0) = some [.mark 9000, .space 4500] := by decide
theorem test_wireBit1 : traceOf (exec .wireBit1 s0) = some [.mark 560, .space 1690] := by decide
theorem test_wireBit0 : traceOf (exec .wireBit0 s0) = some [.mark 560, .space 560] := by decide
theorem test_wireEnd : traceOf (exec .wireEnd s0) = some [.mark 560, .space 0] := by decide
/-- The results of V-SC1 to V-SC4. -/
theorem test_ctrlStart : resOf (exec .ctrlStart s0) = some ⟨1, 1, 1, 8, 0xA1, 7⟩ := by decide
theorem test_ctrlEnd : resOf (exec .ctrlEnd s0) = some ⟨1, 1, 2, 8, 0xA2, 7⟩ := by decide
theorem test_ctrlAck : resOf (exec .ctrlAck s0) = some ⟨1, 1, 3, 8, 0xA3, 7⟩ := by decide
theorem test_ctrlNack : resOf (exec .ctrlNack s0) = some ⟨1, 1, 4, 8, 0xA4, 7⟩ := by decide
/-- 41_sender.md R86 and R87 with the other constants: the seven bits 1010011 of Ack, and a count over 32. -/
theorem test_other_sendcAck : traceOf (exec .sendcAck (State.resetWith otherCfg)) = some [.mark 9000, .space 4500,
    .mark 560, .space 1690, .mark 560, .space 560, .mark 560, .space 1690, .mark 560, .space 560, .mark 560, .space 560,
    .mark 560, .space 1690, .mark 560, .space 1690, .mark 560, .space 0] := by decide
theorem test_other_sendd : traceOf (exec (.sendd 0 33) (State.resetWith otherCfg)) = some [] := by decide
/-- 42_decoder.md R92 and R97 with the other constants: six samples are too few, and the seven bits of Ack are read back. -/
theorem test_other_too_short : resOf (exec .decode { State.resetWith otherCfg with
    capture := [30000, 9000, 4500, 560, 560, 560] }) = some ⟨2, 0, 0, 0, 0, 0⟩ := by decide
theorem test_other_ack : resOf (exec .decode { State.resetWith otherCfg with
    capture := captureOf (controlPulses otherCfg .ack) 30000 }) = some ⟨1, 1, 3, 7, 0b1010011, 7⟩ := by decide
/-- P5: a refused word. -/
theorem test_refused_word : refusalIn (step (given (.command 0x15))) = some (.reservedCtype 5) := by decide

/-! ### Witnesses: a concrete state and operands that meet a statement's hypotheses, one for each clause -/

/-- The reference capture of a SEND_CONTROL. -/
def refControl (code : ControlCode) : List Micros := captureOf (controlPulses cfg code) 30000

/-- The reference capture of a SEND_DATA. -/
def refData (v : DataValue) (n : BitVec 8) : List Micros := captureOf (dataPulses cfg v n) 30000

/-- V-D5, the shortest data frame. -/
def minData : List Micros := [30000, 9000, 4500, 560, 560, 560]

/-- V-D6, the shortest control path. -/
def minControl : List Micros := [30000, 9000, 4500, 560, 1690, 560]

/-- V-D3, a header mark one microsecond too long. -/
def badHeader : List Micros := [30000, 11251, 4500, 560, 560, 560]

/-- A DECODE in progress, with something presented. -/
def decoding (i : Input) : State := { inPhase .lengthCheck minData with inputs := [i] }

/-- A SEND in progress, with something presented. -/
def sendingOne (i : Input) : State := { s0 with busy := true, sending := [.space 0], inputs := [i] }

/-- PowerOnAndResetStepLeaveTheSameValues. -/
theorem test_witness_reset_phase : (inPhase .reset []).phase = .reset := by decide

/-- ResetEndsACommandAndOpensTheLevel, both clauses. -/
theorem test_witness_reset_busy : (decoding .reset).inputs = .reset :: [] ∧ (decoding .reset).busy = true := by decide
theorem test_witness_reset_idle : (given .reset).inputs = .reset :: [] ∧ (given .reset).busy = false := by decide

/-- PowerOnRefusesAnInvalidConfiguration: the narrowest valid widths, and each broken constraint at its boundary. -/
theorem test_witness_powerOn_valid : (Params.normative 31 14 5 7 3).CountsOfR7 ∧ (Params.normative 31 14 5 7 3).CountsFit ∧
    (Params.normative 31 14 5 7 3).ctrlPrefix.getLsbD (5 - 1) = true ∧ 7 ≠ 0 ∧ 7 < 2 ^ 3 ∧ 11250 < 2 ^ 14 - 1 ∧
    (Params.normative 31 14 5 7 3).portSaturates = true ∧ 19 < 2 ^ 5 ∧ 31 < 2 ^ 5 := by decide
theorem test_witness_powerOn_other : otherParams.CountsFit ∧
    otherParams.ctrlPrefix.getLsbD (otherParams.ctrlPrefixBits - 1) = true := by decide
theorem test_witness_powerOn_smallest : { Params.normative 31 14 5 7 3 with
    wValue := 4, maxDataBits := 1, ctrlBits := 4, ctrlPrefixBits := 1, ctrlPrefix := 1, minCaptureLen := 5 }.CountsFit := by
  decide
theorem test_witness_powerOn_invalid :
    { Params.normative 31 14 5 7 3 with ctrlPrefix := 0b01111 }.ctrlPrefix.getLsbD (5 - 1) = false ∧
    ¬ { Params.normative 31 14 5 7 3 with minCaptureLen := 4 }.CountsFit ∧
    ¬ { Params.normative 31 14 5 7 3 with maxDataBits := 65 }.CountsFit ∧
    (Params.normative 31 14 5 0 3).protocolId = 0 ∧ 2 ^ (Params.normative 31 13 5 7 3).sampleW - 1 ≤ 11250 ∧
    { Params.normative 31 14 5 7 3 with portSaturates := false }.portSaturates = false ∧
    2 ^ (Params.normative 32 14 5 7 3).cursorW ≤ max 19 (Params.normative 32 14 5 7 3).captureMax ∧
    2 ^ (Params.normative 0 14 4 7 3).cursorW ≤ max 19 (Params.normative 0 14 4 7 3).captureMax := by decide

/-- MatchIsTheExactTolerance and MatchWindowIsAClosedInterval. -/
theorem test_witness_match : 0 < (1 : Micros) ∧ Timing.normative.tolNum = 1 ∧ Timing.normative.tolDen = 4 := by decide

/-- NoPairIsClassifiedTwoWays: a Logical 1 at a corner of its window, and a pair in both windows of another timing. -/
theorem test_witness_one_at_the_corner : isOne Timing.normative 420 1268 = true ∧
    isOne Timing.normative 700 2112 = true := by decide
theorem test_witness_one_and_zero_overlap : isOne { Timing.normative with oneSpace := 600 } 560 560 = true ∧
    isZero { Timing.normative with oneSpace := 600 } 560 560 = true := by decide

/-- The check of 40_timing_codec.md R80: the normative windows 420..700 and 1268..2112 are apart (R78), spaces of 933 and 560
meet at 700 and those of 934 do not (the window of R76), and a header as short as a Logical 1 meets it. -/
theorem test_windows_apart : windowsApart Timing.normative = true ∧
    windowsApart { Timing.normative with oneSpace := 934 } = true := by decide
theorem test_windows_meet : windowsApart { Timing.normative with oneSpace := 933 } = false ∧
    windowsApart { Timing.normative with hdrMark := 600, hdrSpace := 1700 } = false := by decide
/-- NoPairIsClassifiedTwoWays: a configuration with the normative timing, and one that fails the check and powers on. -/
theorem test_witness_checked : cfg.timing = Timing.normative ∧ cfg.windowsApart = true := by decide
theorem test_witness_powerOn_overlap :
    { Params.normative 200 16 8 7 3 with timing := { Timing.normative with oneSpace := 600 } }.Valid := by decide

/-- SaturatedCaptureDecodesTheSame, ControlByteIsTheDecodeOfItsFrame, and the statements whose only hypotheses are a free
core and the normative configuration (SendBit, SendHdr, SendEnd, SendControl, SendData, ReceivedControlByteOutcome,
ControlBytesRecordTheirCode, ControlBytesOfTheNormativePrefix, DecodeIsTheClosedForm, DecodeTakesTheCountedSteps, WireDurationOfAFrame). -/
theorem test_witness_free_normative : (cap [70000, 9000, 4500, 560, 560, 70000]).busy = false ∧
    cfg.timing = Timing.normative ∧ cfg.CountsOfR7 ∧ cfg.ctrlPrefix = 0b10100 := by decide
theorem test_witness_free_other : (State.resetWith otherCfg).busy = false ∧ otherCfg.timing = Timing.normative ∧
    otherCfg.minCaptureLen ≤ 2 * otherCfg.ctrlBits + 4 := by decide

/-- DecodeTakesTheCountedSteps: the last step before completion. -/
theorem test_witness_steps : 1 < decodeSteps cfg [] ∧ 14 < decodeSteps cfg (refControl .ack) := by decide

/-- SendControlEmitsTheControlFrame and OpcodeMapIsTotal: the words. -/
theorem test_witness_control_words : (0x05 : CommandWord).extractLsb' 0 2 = 0b01 ∧
    (0x05 : CommandWord).extractLsb' 2 3 = 1 ∧ (0x09 : CommandWord).extractLsb' 2 3 = 2 ∧
    (0x0D : CommandWord).extractLsb' 2 3 = 3 ∧ (0x11 : CommandWord).extractLsb' 2 3 = 4 ∧
    (0x11 : CommandWord).extractLsb' 2 3 = ControlCode.nack.type := by decide
theorem test_witness_reserved_words : (0x00 : CommandWord).extractLsb' 0 2 = 0b00 ∧
    (0x01 : CommandWord).extractLsb' 0 2 = 0b01 ∧ (0x01 : CommandWord).extractLsb' 2 3 = 0#3 ∧
    (0x15 : CommandWord).extractLsb' 2 3 = 5#3 ∧ (0x19 : CommandWord).extractLsb' 2 3 = 6#3 ∧
    (0x1D : CommandWord).extractLsb' 2 3 = 7#3 := by decide
theorem test_witness_data_and_decode_words : (0x350802 : CommandWord).extractLsb' 0 2 = 0b10 ∧
    (0x3 : CommandWord).extractLsb' 0 2 = 0b11 := by decide

/-- SendDataEmitsTheSelectedBits: the last count that is sent and the first that is not. -/
theorem test_witness_counts : s0.busy = false ∧ (64 : BitVec 8).toNat ≤ cfg.maxDataBits ∧
    cfg.maxDataBits < (65 : BitVec 8).toNat := by decide

/-- EverySentFrameIsBracketedAndAlternates: the empty payload, and a control frame. -/
theorem test_witness_frames : dataPulses cfg 0 0 ≠ [] ∧ controlPulses cfg .start ≠ [] := by decide

/-- ReferenceCaptureLayout: the last payload bit. -/
theorem test_witness_layout : Timing.normative.endSpace = 0 ∧ ([true, false] : List Bool)[1]? = some false := by decide

/-- EmitterLevelFollowsTheLastPulse, its three clauses. -/
theorem test_witness_levels : s0.levelOpen = none ∧ s0.trace = [] ∧
    ({ s0 with trace := [.mark 560] } : State).trace = [] ++ [.mark 560] ∧
    ({ s0 with trace := [.mark 560, .space 0] } : State).trace = [.mark 560] ++ [.space 0] := by decide

/-- ReferenceCaptureIsOfTheLastSend: a SEND of no pulses, and one of a frame. -/
theorem test_witness_last_send : s0.busy = false ∧ Command.sendData 0xF 70 ≠ .decode ∧
    traceOf (exec (Instr.ofCommand (.sendData 0xF 70)) s0) = some [] ∧ ([30000] : List Micros).length ≤ cfg.captureMax ∧
    (refControl .ack).length ≤ cfg.captureMax := by decide
theorem test_witness_last_send_runs : exec (Instr.ofCommand (.sendData 0xF 70)) s0 = .next s0 := rfl

/-- CommandWhileBusyIsRefused, both ways to present. -/
theorem test_witness_busy_command : (decoding (.command 0x3)).busy = true ∧
    (decoding (.command 0x3)).inputs = .command 0x3 :: [] := by decide
theorem test_witness_busy_present : (sendingOne (.present 0x0)).busy = true ∧
    (sendingOne (.present 0x0)).inputs = .present 0x0 :: [] := by decide

/-- CaptureMayNotChangeDuringADecode: raw and reference during a DECODE; during a SEND, a capture of `CAPTURE_MAX`. -/
theorem test_witness_capture_raw : (decoding (.captureRaw [])).busy = true ∧ (decoding (.captureRaw [])).phase ≠ .idle ∧
    (decoding (.captureRaw [])).inputs = .captureRaw [] :: [] := by decide
theorem test_witness_capture_ref : (decoding (.captureRef 0)).busy = true ∧ (decoding (.captureRef 0)).phase ≠ .idle ∧
    (decoding (.captureRef 0)).inputs = .captureRef 0 :: [] := by decide
theorem test_witness_capture_during_send : (sendingOne .quiet).busy = true ∧ (sendingOne .quiet).phase = .idle ∧
    (List.replicate 200 0).length ≤ (sendingOne .quiet).cfg.captureMax :=
  ⟨by decide, by decide, by rw [List.length_replicate]; decide⟩

/-- WordsThatNameNoCommandAreRefused, both clauses and both ways to present. -/
theorem test_witness_refused_op : (given (.command 0x0)).busy = false ∧
    (given (.command 0x0)).inputs = .command 0x0 :: [] ∧ (0x0 : CommandWord).extractLsb' 0 2 = 0b00 := by decide
theorem test_witness_refused_ctype : (given (.present 0x1D)).busy = false ∧
    (given (.present 0x1D)).inputs = .present 0x1D :: [] ∧ (0x1D : CommandWord).extractLsb' 0 2 = 0b01 ∧
    (0x1D : CommandWord).extractLsb' 2 3 ∈ [0#3, 5#3, 6#3, 7#3] := by decide

/-- StepRunsThePresentedInstruction, its three clauses. -/
theorem test_witness_step_command : (given (.command 0xD)).busy = false ∧
    (given (.command 0xD)).inputs = .command 0xD :: [] ∧ decode 0xD = .ok .sendcAck := by decide
theorem test_witness_step_byte : (given (.ctrlByte 0xA3)).inputs = .ctrlByte 0xA3 :: [] ∧
    decodeCtrlByte (given (.ctrlByte 0xA3)).cfg.toParams 0xA3 = .ok .ack := by decide
theorem test_witness_step_table : s0.busy = false ∧ s0.cfg.CountsOfR7 ∧ s0.cfg.ctrlPrefix = 0b10100 ∧
    decodeTableWord 8 0xA1 = some .ctrlStart ∧ decodeTableWord 80 0x3 = some .decode := by decide

/-- DecodeOfEncodeIsTheInstruction: the widest operands of each encoding. -/
theorem test_witness_encode : encode cfg .wireEnd = some (.symbol 560 0) ∧ encode cfg .ctrlNack = some (.byte 0xA4) ∧
    encode cfg (.sendd (BitVec.allOnes 64) 255) = some (.command 0xFFFFFFFFFFFFFFFFFF02) := by decide

/-- WellFormedWordIsTheEncodingOfItsCommand. -/
theorem test_witness_wellFormed_word : CommandWord.wellFormed 0xFFFFFFFFFFFFFFFFFF02 = true ∧
    decode 0xFFFFFFFFFFFFFFFFFF02 = .ok (.sendd (BitVec.allOnes 64) 255) ∧
    CommandWord.wellFormed 0x11 = true ∧ decode 0x11 = .ok .sendcNack := by decide

/-- ReceivedControlByteOutcome: a byte of each clause, beside the clause next to it. -/
theorem test_witness_received : 0xA4#8 ∈ [0xA1#8, 0xA2#8, 0xA3#8, 0xA4#8] ∧
    0xA5#8 ∈ [0xA0#8, 0xA5#8, 0xA6#8, 0xA7#8] ∧ (0xA8#8).extractLsb' 3 5 ≠ 0b10100 ∧
    (0x9F#8).extractLsb' 3 5 ≠ 0b10100 := by decide

/-- GetBitReadsOnePair: the last index past the capture, the last pair inside it, a Logical 0, and V-G1, V-G5. -/
theorem test_witness_getBit : minData.length ≤ 5 + 1 ∧ 4 + 1 < minData.length ∧
    isZero Timing.normative (minData.getD 4 0) (minData.getD 5 0) = true ∧
    isOne Timing.normative (minData.getD 4 0) (minData.getD 5 0) = false ∧ minData.length = 6 ∧
    ([0, 0, 0, 0, 0, 560, 1700] : List Micros).getD 5 0 = 560 ∧
    ([0, 0, 0, 0, 0, 560, 1700] : List Micros).getD 6 0 = 1700 := by decide

/-- LengthAndHeaderRules: five samples, six samples, a header that matches and one that does not. -/
theorem test_witness_length_rule : (inPhase .lengthCheck [0, 0, 0, 0, 0]).phase = .lengthCheck ∧
    (inPhase .lengthCheck [0, 0, 0, 0, 0]).capture.length = 5 ∧ (inPhase .lengthCheck minData).capture.length = 6 := by
  decide
theorem test_witness_header_rule : (inPhase .headerCheck minData).phase = .headerCheck ∧
    cfg.minCaptureLen ≤ (inPhase .headerCheck minData).capture.length ∧ hasHeader cfg.timing minData = true ∧
    hasHeader cfg.timing badHeader = false := by decide

/-- DiscriminateAndReadRules, one state for each clause: the last read of eight, and the end of the eight. -/
theorem test_witness_discriminate : ({ inPhase .discriminate minData with cursor := 3 } : State).phase = .discriminate ∧
    ({ inPhase .discriminate minData with cursor := 3 } : State).cursor = 3 ∧ cfg.minCaptureLen ≤ minData.length := by decide
theorem test_witness_reads : ({ inPhase .ctrlRead minControl with cursor := 17, nbits := 7 } : State).phase = .ctrlRead ∧
    ({ inPhase .ctrlRead minControl with cursor := 19, nbits := 8 } : State).phase = .ctrlRead ∧
    ({ inPhase .dataRead minData with cursor := 3 } : State).phase = .dataRead ∧
    ({ inPhase .dataRead minData with cursor := 5, nbits := 1 } : State).phase = .dataRead := by decide

/-- ControlCheckAndDoneRules: a byte of each arm of CTRL_CHECK, and DONE. -/
theorem test_witness_ctrlCheck : (inPhase .ctrlCheck minControl).phase = .ctrlCheck ∧
    (0x80 : BitVec 64).extractLsb' 3 5 ≠ cfg.ctrlPrefix ∧ (0xA7 : BitVec 64).extractLsb' 3 5 = cfg.ctrlPrefix ∧
    (0xA7 : BitVec 64).extractLsb' 0 3 ∉ [1#3, 2#3, 3#3, 4#3] ∧ (0xA4 : BitVec 64).extractLsb' 0 3 ∈ [1#3, 2#3, 3#3, 4#3] ∧
    (inPhase .done minControl).phase = .done := by decide

/-- DataPathBitCountAndTopBit: six samples, 131 and 132 samples, the boundaries of its counts. -/
theorem test_witness_data_path : (cap minData).busy = false ∧ cfg.minCaptureLen ≤ minData.length ∧ hasHeader cfg.timing minData = true ∧
    isControlFrame cfg.timing minData = false ∧ minData.length = 2 * 1 + 4 := by decide
theorem test_witness_data_path_long : hasHeader cfg.timing (minData ++ List.replicate 125 560) = true ∧
    isControlFrame cfg.timing (minData ++ List.replicate 125 560) = false ∧
    (minData ++ List.replicate 125 560).length = 2 * 63 + 5 ∧ 131 ≤ (minData ++ List.replicate 125 560).length ∧
    (minData ++ List.replicate 126 560).length = 2 * 64 + 4 :=
  ⟨by decide, by decide, rfl, by rw [List.length_append, List.length_replicate]; decide, rfl⟩

/-- TheFirstFailureInOrderIsReported: a short capture, six samples with and without the header, and a received byte for
each end of the control path. -/
theorem test_witness_failures : (cap [0, 0, 0, 0, 0]).capture.length < cfg.minCaptureLen ∧ cfg.minCaptureLen ≤ badHeader.length ∧
    hasHeader cfg.timing badHeader = false ∧ hasHeader cfg.timing minData = true ∧
    isControlFrame cfg.timing minData = false := by decide
theorem test_witness_failures_control : hasHeader cfg.timing minControl = true ∧
    isControlFrame cfg.timing minControl = true ∧
    receivedPrefix cfg minControl ≠ cfg.ctrlPrefix.toNat ∧
    receivedPrefix cfg (refData 0x5 3) = cfg.ctrlPrefix.toNat ∧ receivedType cfg (refData 0x5 3) ∉ [1, 2, 3, 4] ∧
    receivedPrefix cfg (refControl .nack) = cfg.ctrlPrefix.toNat ∧
    receivedType cfg (refControl .nack) ∈ [1, 2, 3, 4] := by decide

/-- FirstBitOneIsNeverData. -/
theorem test_witness_first_bit_one : (cap minControl).busy = false ∧ cfg.minCaptureLen ≤ minControl.length ∧
    isHeader cfg.timing (minControl.getD 1 0) (minControl.getD 2 0) = true ∧
    isOne cfg.timing (minControl.getD 3 0) (minControl.getD 4 0) = true := by decide

/-- ReferenceChannelRoundTrips: each code; one bit and 64 bits with first bit 0; one bit, 8, 9 and 64 bits with first bit
1; a byte of each outcome (V-SD10, V-SD11, V-SD9); no bits. -/
theorem test_witness_round_trip_control : (cap (refControl .nack)).capture = captureOf (controlPulses cfg .nack) 30000 ∧
    (cap (refControl .nack)).busy = false ∧ (cap (refData 0 0)).capture = captureOf (dataPulses cfg 0 0) 30000 := by
  decide
theorem test_witness_round_trip_first_bit : (0 : DataValue).getLsbD ((1 : BitVec 8).toNat - 1) = false ∧
    (0x7FFFFFFFFFFFFFFF : DataValue).getLsbD ((64 : BitVec 8).toNat - 1) = false ∧
    (1 : DataValue).getLsbD ((1 : BitVec 8).toNat - 1) = true ∧ (0xA3 : DataValue).getLsbD ((8 : BitVec 8).toNat - 1) = true ∧
    (0x1A3 : DataValue).getLsbD ((9 : BitVec 8).toNat - 1) = true ∧
    (BitVec.allOnes 64).getLsbD ((64 : BitVec 8).toNat - 1) = true := by decide
theorem test_witness_round_trip_byte : (0x80#8).toNat = (1 % 2 ^ 1) <<< (8 - 1) ∧
    (0xA3#8).toNat = (0xA3 % 2 ^ 8) <<< (8 - 8) ∧ (0xD1#8).toNat = (0x1A3 >>> (9 - 8)) % 256 ∧
    0xA3#8 ∈ [0xA1#8, 0xA2#8, 0xA3#8, 0xA4#8] ∧ 0xA0#8 ∈ [0xA0#8, 0xA5#8, 0xA6#8, 0xA7#8] ∧
    0xB0#8 ∉ [0xA0#8, 0xA1#8, 0xA2#8, 0xA3#8, 0xA4#8, 0xA5#8, 0xA6#8, 0xA7#8] := by decide

/-- JitterWithinToleranceDecodesTheSame: V-D15 against the reference capture of Ack. -/
theorem test_witness_jitter : (refControl .ack).length = 20 ∧
    ∀ i ∈ readIndices cfg (refControl .ack), withinTolerance cfg.timing
      (([30000, 11250, 3375, 420, 2112, 700, 700, 420, 1268, 700, 420, 420, 700, 700, 420, 420, 1268, 700, 2112,
        560] : List Micros).getD i 0) ((refControl .ack).getD i 0) = true := by decide

/-- DecodeDependsOnlyOnTheSamplesItReads: the first three clauses, and two captures that differ at indices 0 and 5. -/
theorem test_witness_reads_only : 1 ∈ readIndices cfg minData ∧ [0, 0, 0, 0, 0].length < cfg.minCaptureLen ∧ cfg.minCaptureLen ≤ badHeader.length ∧
    hasHeader cfg.timing badHeader = false ∧ hasHeader cfg.timing minData = true := by decide
theorem test_witness_reads_agree : ∀ i ∈ readIndices cfg minData,
    ([0, 9000, 4500, 560, 560, 1] : List Micros).getD i 0 = minData.getD i 0 := by decide

/-- DecodeAndSendAreIndependent: two states with one capture and different registers. -/
theorem test_witness_independent : ({ cap minData with acc := 5, nbits := 3, trace := [.mark 1] } : State).busy = false ∧
    ({ cap minData with acc := 5, nbits := 3, trace := [.mark 1] } : State).cfg = (cap minData).cfg ∧
    ({ cap minData with acc := 5, nbits := 3, trace := [.mark 1] } : State).capture = (cap minData).capture ∧
    Command.sendControl .ack ≠ .decode := by decide

/-- SamplesAfterThePayload: 19 samples of a control frame; one bit and 63 bits with first bit 0. -/
theorem test_witness_samples_after_control : s0.busy = false ∧ 19 ≤ ((refControl .ack).take 19).length ∧
    isControlFrame cfg.timing ((refControl .ack).take 19) = true ∧ 3 + 2 * cfg.ctrlBits = 19 ∧
    cfg.minCaptureLen ≤ ((refControl .ack).take 19).length := by decide
theorem test_witness_samples_after_data :
    (cap (refData 0 1 ++ [30000])).capture = captureOf (dataPulses cfg 0 1) 30000 ++ [30000] ∧
    cfg.minCaptureLen ≤ (refData 0 1 ++ [30000]).length ∧ 1 ≤ (1 : BitVec 8).toNat ∧
    (63 : BitVec 8).toNat < cfg.maxDataBits ∧ (0 : DataValue).getLsbD ((63 : BitVec 8).toNat - 1) = false := by
  decide

/-- OnlyDecodeWritesResultsAndTraceOnlyGrows. -/
theorem test_witness_only_decode : exec (.matchOp 0 0) s0 = .next { s0 with ret := .matched true } ∧
    Instr.matchOp 0 0 ≠ .decode ∧ (∀ code, Instr.matchOp 0 0 ≠ Instr.ofControlCode code) := by
  refine ⟨rfl, by decide, ?_⟩
  intro code; cases code <;> decide

/-- HostReadsTheStoredRegisters, between commands, during a SEND and during a DECODE. -/
theorem test_witness_host_reads : (given .readResults).inputs = .readResults :: [] ∧ (given .readResults).busy = false ∧
    (sendingOne .readResults).inputs = .readResults :: [] ∧ (sendingOne .readResults).phase = .idle ∧
    (decoding .readResults).inputs = .readResults :: [] ∧ (decoding .readResults).busy = true ∧
    (decoding .readResults).phase ≠ .idle := by decide

/-- EveryStepKeepsTheStateConsistent, NoStepFaultsFromAConsistentState, StepwiseCommandEndsAsTheAtomicOne: a sound state
between commands. -/
theorem test_witness_consistent_free : Consistent (given (.present 0x3)) where
  idle_when_free := fun _ => ⟨rfl, rfl⟩
  one_command := fun _ => rfl
  capture_fits := by decide
  nbits_le := by decide
  acc_lt := by decide
  phase_sound := Or.inl ⟨by decide, by decide, rfl⟩
  ends_off := fun _ d => by simp [given, s0, State.resetWith]

/-- A sound state inside a DECODE. -/
theorem test_witness_consistent_decoding : Consistent (decoding .quiet) where
  idle_when_free := fun h => by cases h
  one_command := fun _ => rfl
  capture_fits := by decide
  nbits_le := by decide
  acc_lt := by decide
  phase_sound := ⟨rfl, rfl, rfl, rfl⟩
  ends_off := fun _ d => by simp [decoding, inPhase, cap, s0, State.resetWith]

/-- IdleCoreKeepsItsStateWithTheEmitterOff: nothing presented and a known level, after a mark and a space. -/
theorem test_witness_consistent_idle : Consistent { s0 with trace := [.mark 560, .space 0] } where
  idle_when_free := fun _ => ⟨rfl, rfl⟩
  one_command := fun _ => rfl
  capture_fits := by decide
  nbits_le := by decide
  acc_lt := by decide
  phase_sound := Or.inl ⟨by decide, by decide, rfl⟩
  ends_off := fun _ d => by simp [s0, State.resetWith]
theorem test_witness_idle : s0.inputs = [] ∧ s0.busy = false ∧ s0.levelOpen = none := by decide

/-- The step that EveryStepKeepsTheStateConsistent speaks of exists. -/
theorem test_witness_a_step : step (decoding .quiet) = .next (inPhase .headerCheck minData) := rfl

/-- StepwiseCommandEndsAsTheAtomicOne: the words and the bounds. -/
theorem test_witness_stepwise : (given (.present 0x3)).busy = false ∧ decodeCommand 0x3 = .ok .decode ∧
    commandBound cfg .decode ≤ 70 ∧ decodeCommand 0x350802 = .ok (.sendData 0x35 8) ∧
    commandBound cfg (.sendData 0x35 8) ≤ 21 := by decide

end Sys2Proof.Tests
end

section
/-! PROOFS. The state: reset, the emitter's level, the host's reads, what an instruction writes, and the invariant every
step keeps (10_state.md R15 to R33). -/

namespace Sys2Proof.Machine

variable {s t u : State}

/-! ### What the state machine leaves as it was -/

/-- `t` with the registers a DECODE writes, its own and the results and BUSY, as they are in `s` (42_decoder.md R91 to
R99). -/
def withDecoderOf (s t : State) : State :=
  { t with
    phase := s.phase, cursor := s.cursor, acc := s.acc, nbits := s.nbits, isctrl := s.isctrl, res := s.res
    busy := s.busy }

/-- What the decode state machine leaves as it was: every field but the registers a DECODE writes. -/
def DecodeFrame (s t : State) : Prop := withDecoderOf s t = s

theorem DecodeFrame.refl (s : State) : DecodeFrame s s := rfl

theorem DecodeFrame.trans (hsu : DecodeFrame s u) (hut : DecodeFrame u t) : DecodeFrame s t :=
  calc withDecoderOf s t = withDecoderOf s (withDecoderOf u t) := rfl
    _ = withDecoderOf s u := congrArg (withDecoderOf s) hut
    _ = s := hsu

/-- Any reading of the state that the registers of a DECODE do not enter is the same after it. -/
theorem DecodeFrame.keeps {α : Type} (f : State → α) (h : DecodeFrame s t) : f (withDecoderOf s t) = f s :=
  congrArg f h

theorem DecodeFrame.cfg_eq (h : DecodeFrame s t) : t.cfg = s.cfg := h.keeps State.cfg
theorem DecodeFrame.trace_eq (h : DecodeFrame s t) : t.trace = s.trace := h.keeps State.trace
theorem DecodeFrame.sending_eq (h : DecodeFrame s t) : t.sending = s.sending := h.keeps State.sending
theorem DecodeFrame.capture_eq (h : DecodeFrame s t) : t.capture = s.capture := h.keeps State.capture
theorem DecodeFrame.inputs_eq (h : DecodeFrame s t) : t.inputs = s.inputs := h.keeps State.inputs
theorem DecodeFrame.levelOpen_eq (h : DecodeFrame s t) : t.levelOpen = s.levelOpen := h.keeps State.levelOpen

theorem beginDecode_decodeFrame (s : State) : DecodeFrame s (beginDecode s) := rfl

theorem atCtrlCheck_decodeFrame (b : ControlByte) (s : State) : DecodeFrame s (atCtrlCheck b s) := rfl

theorem decodeRule_decodeFrame (h : decodeRule s = .ok t) : DecodeFrame s t := by
  rw [decodeRule] at h
  split at h
  case h_1 => cases h; rfl
  case h_2 => cases h; rfl
  case h_3 => rw [lengthCheckRule] at h; split at h <;> (cases h; rfl)
  case h_4 =>
    rw [headerCheckRule] at h
    split at h
    · cases h
    · split at h <;> (cases h; rfl)
  case h_5 =>
    rw [discriminateRule] at h
    split at h <;> cases h
    rfl
  case h_6 => rw [ctrlReadRule, readBitRule_eq] at h; split at h <;> (cases h; rfl)
  case h_7 => rw [ctrlCheckRule_eq] at h; cases h; split_ifs <;> rfl
  case h_8 => rw [dataReadRule, readBitRule_eq] at h; split at h <;> (cases h; rfl)
  case h_9 => cases h; rfl

/-! ### Runs of the state machine -/

/-- What every rule keeps, a run keeps. -/
theorem decodeRun_keeps (P : State → Prop) (hP : ∀ u v, P u → decodeRule u = .ok v → P v) {n : Nat} (hs : P s)
    (h : decodeRun n s = .ok t) : P t := by
  induction n generalizing s with
  | zero => cases h; exact hs
  | succ n ih =>
    rw [decodeRun] at h
    split at h
    · cases h; exact hs
    · split at h
      · cases h
      · rename_i v hv
        exact ih (hP s v hs hv) h

theorem decodeRun_decodeFrame {n : Nat} (h : decodeRun n s = .ok t) : DecodeFrame s t :=
  decodeRun_keeps (DecodeFrame s) (fun _ _ hu hv => hu.trans (decodeRule_decodeFrame hv)) (.refl s) h

/-- A rule that ends the DECODE, and no other, sets BUSY to 0. -/
theorem decodeRule_idle_when_free (hs : s.busy = false → s.phase = .idle) (h : decodeRule s = .ok t) :
    t.busy = false → t.phase = .idle := by
  by_cases hp : s.phase = .idle
  · rw [decodeRule, hp] at h
    cases h
    exact hs
  · intro hfree
    obtain ⟨-, -, -, -, hbusy⟩ := decodeRule_frame s t h
    by_contra ht
    exact hp (hs ((hbusy ht).symm.trans hfree))

theorem ofRun_eq_next {r : Except Fault State} : ofRun r = .next t ↔ r = .ok t := by
  cases r <;> simp [ofRun]

/-- A DECODE that completes began at BUSY = 0 and is a run of the state machine. -/
theorem execDecode_eq_next (h : execDecode s = .next t) :
    s.busy = false ∧ decodeRun decodeFuel (beginDecode s) = .ok t := by
  rw [execDecode] at h
  split at h
  · cases h
  · rename_i hb
    exact ⟨Bool.eq_false_iff.mpr hb, ofRun_eq_next.mp h⟩

theorem receiveControl_eq_next {b : ControlByte} (h : receiveControl b s = .next t) :
    s.busy = false ∧ decodeRun 2 (atCtrlCheck b s) = .ok t := by
  rw [receiveControl] at h
  split at h
  · cases h
  · rename_i hb
    exact ⟨Bool.eq_false_iff.mpr hb, ofRun_eq_next.mp h⟩

/-! ### What an instruction can write -/

/-- Any reading of the state that TRACE, `lastSend` and `levelOpen` do not enter is the same after an emission. -/
theorem EmissionFrame.keeps {α : Type} (f : State → α) (h : EmissionFrame s t) :
    f { t with trace := s.trace, lastSend := s.lastSend, levelOpen := s.levelOpen } = f s :=
  congrArg f h

theorem sendCommand_eq_next {ps : List Pulse} (h : sendCommand ps s = .next t) :
    s.busy = false ∧ t = { s with
      trace := s.trace ++ ps, lastSend := ps, levelOpen := if ps = [] then s.levelOpen else none } := by
  rw [sendCommand_eq] at h
  split at h
  · cases h
  · rename_i hb
    cases h
    exact ⟨Bool.eq_false_iff.mpr hb, rfl⟩

/-- The four commands and control bytes by their code, and not by their row. -/
theorem exec_ofSendControl (code : ControlCode) (s : State) :
    exec (Instr.ofSendControl code) s = sendCommand (controlPulses s.cfg code) s := by
  cases code <;> rfl

theorem exec_ofControlCode (code : ControlCode) (s : State) :
    exec (Instr.ofControlCode code) s = receiveControl (ctrlByte s.cfg.toParams code) s := by
  cases code <;> rfl

/-- The three kinds of an instruction's next state: pulses appended to TRACE, an answer in `ret`, or the end of a DECODE. -/
inductive ExecEffect (i : Instr) (s t : State) : Prop where
  | emitted (frame : EmissionFrame s t) (grows : s.trace <+: t.trace)
  | answered (r : OpReturn) (eq : t = { s with ret := r })
  | decoded (row : i = .decode ∨ ∃ code, i = Instr.ofControlCode code) (frame : DecodeFrame s t)

theorem emitAll_effect (i : Instr) (ps : List Pulse) (s : State) : ExecEffect i s (emitAll ps s) := by
  rw [emitAll_eq]
  exact .emitted rfl (List.prefix_append _ _)

theorem sendCommand_effect (i : Instr) {ps : List Pulse} (h : sendCommand ps s = .next t) : ExecEffect i s t := by
  obtain ⟨-, rfl⟩ := sendCommand_eq_next h
  exact .emitted rfl (List.prefix_append _ _)

theorem receiveControl_effect (code : ControlCode) {b : ControlByte} (h : receiveControl b s = .next t) :
    ExecEffect (Instr.ofControlCode code) s t :=
  .decoded (.inr ⟨code, rfl⟩)
    ((atCtrlCheck_decodeFrame b s).trans (decodeRun_decodeFrame (receiveControl_eq_next h).2))

theorem exec_effect (i : Instr) (h : exec i s = .next t) : ExecEffect i s t := by
  cases i with
  | sendcStart => exact sendCommand_effect _ h
  | sendcEnd => exact sendCommand_effect _ h
  | sendcAck => exact sendCommand_effect _ h
  | sendcNack => exact sendCommand_effect _ h
  | sendd v n => exact sendCommand_effect _ h
  | decode =>
    exact .decoded (.inl rfl) ((beginDecode_decodeFrame s).trans (decodeRun_decodeFrame (execDecode_eq_next h).2))
  | matchOp a e => cases h; exact .answered _ rfl
  | sendBit b => cases h; exact emitAll_effect _ _ s
  | sendHdr => cases h; exact emitAll_effect _ _ s
  | sendEnd => cases h; exact emitAll_effect _ _ s
  | getBit c =>
    simp only [exec, execGetBit, getbit_eq] at h
    cases h
    exact .answered _ rfl
  | wireHeader => cases h; exact emitAll_effect _ _ s
  | wireBit1 => cases h; exact emitAll_effect _ _ s
  | wireBit0 => cases h; exact emitAll_effect _ _ s
  | wireEnd => cases h; exact emitAll_effect _ _ s
  | ctrlStart => exact receiveControl_effect .start h
  | ctrlEnd => exact receiveControl_effect .endCode h
  | ctrlAck => exact receiveControl_effect .ack h
  | ctrlNack => exact receiveControl_effect .nack h

/-- Settles O49, by the three kinds of effect an instruction has. -/
theorem onlyDecodeWritesResultsAndTraceOnlyGrows : Obligations.OnlyDecodeWritesResultsAndTraceOnlyGrows := by
  intro i s t h
  cases exec_effect i h with
  | emitted frame grows =>
    exact ⟨fun _ _ => ⟨frame.keeps State.res, frame.keeps State.cursor, frame.keeps State.acc, frame.keeps State.nbits,
      frame.keeps State.isctrl⟩, grows, frame.keeps State.capture, frame.keeps State.cfg, frame.keeps State.inputs⟩
  | answered r eq =>
    subst eq
    exact ⟨fun _ _ => ⟨rfl, rfl, rfl, rfl, rfl⟩, List.prefix_refl _, rfl, rfl, rfl⟩
  | decoded row frame =>
    refine ⟨fun hdecode hctrl => ?_, frame.trace_eq ▸ List.prefix_refl _, frame.capture_eq, frame.cfg_eq,
      frame.inputs_eq⟩
    obtain rfl | ⟨code, rfl⟩ := row
    · exact absurd rfl hdecode
    · exact absurd rfl (hctrl code)

/-! ### Reset, the emitter's level and the host's reads -/

theorem decodeRule_reset (h : s.phase = .reset) :
    decodeRule s = .ok { clearContext s with phase := .lengthCheck } := by
  rw [decodeRule, h]
  rfl

/-- Settles O1: the reset state and state RESET write the cleared registers by definition. -/
theorem powerOnAndResetStepLeaveTheSameValues : Obligations.PowerOnAndResetStepLeaveTheSameValues :=
  ⟨fun _ => ⟨rfl, rfl⟩, rfl, fun _ h => decodeRule_reset h⟩

/-- With the level not open, it is that of the last pulse of TRACE. -/
theorem emitterOn_iff (h : s.levelOpen = none) : emitterOn s = true ↔ ∃ d, s.trace.getLast? = some (.mark d) := by
  rw [emitterOn, h]
  cases s.trace.getLast? with
  | none => simp
  | some p => cases p <;> simp

/-- Settles O19, by the last pulse of TRACE. -/
theorem emitterLevelFollowsTheLastPulse : Obligations.EmitterLevelFollowsTheLastPulse := by
  intro s hopen
  simp only [← Bool.not_eq_true, emitterOn_iff hopen]
  refine ⟨fun ps d h => ⟨d, ?_⟩, fun ps d h => ?_, fun h => ?_⟩ <;> simp [h]

/-- A read writes only what the host read and, during a DECODE, the count of free values used. -/
theorem readResults_eq (s : State) : readResults s =
    { s with hostRead := (readResults s).hostRead, freeCount := (readResults s).freeCount } := by
  rw [readResults]
  split <;> rfl

/-- Between commands and during a SEND the stored registers are read (10_state.md R28; log 25). -/
theorem readResults_stored (h : s.busy = false ∨ s.phase = .idle) :
    (readResults s).hostRead = some ⟨s.busy, s.res⟩ := by
  rw [readResults]
  split
  case h_1 => rfl
  case h_2 hbusy hphase => exact absurd h (by simp_all)
  case h_3 => rfl

/-- During a DECODE the host reads BUSY and free values (log 12). -/
theorem readResults_decoding (hb : s.busy = true) (hp : s.phase ≠ .idle) :
    (readResults s).hostRead = some ⟨true, freeRegs s.cfg s.freeCount⟩ := by
  rw [readResults]
  split
  case h_1 hphase => exact absurd hphase hp
  case h_2 => rw [hb]
  case h_3 hfree => exact absurd hb (by simp [hfree])

theorem step_readResults {rest : List Input} (h : s.inputs = .readResults :: rest) :
    step s = .next (readResults { s with inputs := rest }) := by
  rw [step, busyStep, idleStep, h]
  exact ite_self _

/-- Settles O51, by the three cases of a read. -/
theorem hostReadsTheStoredRegisters : Obligations.HostReadsTheStoredRegisters := fun s rest h =>
  ⟨_, step_readResults h, readResults_eq { s with inputs := rest },
    fun hs => readResults_stored hs,
    fun hb hp => ⟨_, readResults_decoding hb hp⟩⟩

end Sys2Proof.Machine
end

section
/-! PROOFS. The invariant every step keeps: the registers through the decode state machine, then the whole state through
each kind of step. -/

namespace Sys2Proof.Machine

variable {s t : State}

/-! ### The result registers -/

/-- NONE with all else 0 (10_state.md R33). -/
theorem resultsAtRest_cleared (c : Config) : ResultsAtRest c ResultRegs.cleared :=
  .inl ⟨by decide, by decide, rfl⟩

/-- A failure leaves its code in a cleared set of registers (60_exceptions.md R114). -/
theorem raiseFail_phaseSound (r : Failure) (h : s.res = ResultRegs.cleared) : PhaseSound (raiseFail r s) := by
  show ResultsAtRest s.cfg { s.res with status := r.code }
  rw [h]
  exact .inl ⟨by cases r <;> decide, by cases r <;> decide, rfl⟩

/-- A payload that names a control code is the byte of that code (30_encoding.md R60, R61). -/
theorem eq_ctrlByte_of_decodeCtrlByte {c : Config} {b : ControlByte} {code : ControlCode} (hb : b.toNat < 2 ^ c.ctrlBits)
    (h : decodeCtrlByte c.toParams b = .ok code) :
    b = ctrlByte c.toParams code ∧ (typeField c.toParams b).setWidth 3 = code.type := by
  rw [decodeCtrlByte_eq] at h
  split at h
  · cases h
  · rename_i hprefix
    split at h
    · rename_i code' hty
      cases h
      have htype : (typeField c.toParams b).toNat = code.type.toNat := (ofType_eq_some _ _).mp hty
      rw [not_not, Nat.mod_eq_of_lt hb] at hprefix
      constructor
      · apply BitVec.eq_of_toNat_eq
        rw [ctrlByte_toNat, ← hprefix, ← htype, typeField_toNat, Nat.div_add_mod']
      · apply BitVec.eq_of_toNat_eq
        rw [BitVec.toNat_setWidth, htype, Nat.mod_eq_of_lt code.type.isLt]
    · cases h

/-! ### The registers through the state machine -/

/-- What the rules of the state machine keep of a sound state: the bits read, their count, and the registers of the
phase. -/
structure RegistersSound (s : State) : Prop where
  nbits_le : s.nbits.toNat ≤ s.cfg.wValue
  acc_lt : s.acc.toNat < 2 ^ s.nbits.toNat
  phase_sound : PhaseSound s

/-- ACC and NBITS after one more bit, as numbers, while the data value has room for it. -/
theorem shiftIn_toNat (b : Bool) (c' : Nat) (hs : RegistersSound s) (hroom : s.nbits.toNat < s.cfg.wValue) :
    (shiftIn b c' s).nbits.toNat = s.nbits.toNat + 1 ∧ (shiftIn b c' s).acc.toNat = 2 * s.acc.toNat + b.toNat := by
  have h64 := s.cfg.wValue_le
  have hacc : s.acc.toNat < 2 ^ 63 :=
    hs.acc_lt.trans_le (Nat.pow_le_pow_right (by decide) (by omega))
  constructor
  · exact (BitVec.toNat_add _ _).trans (Nat.mod_eq_of_lt (show s.nbits.toNat + 1 < 2 ^ 7 by omega))
  · rw [shiftIn_acc, BitVec.toNat_concat, BitVec.toNat_setWidth, Nat.mod_eq_of_lt hacc]
    omega

/-- One more bit leaves ACC right-aligned (10_state.md R19) and counted (R20). -/
theorem RegistersSound.shiftIn (b : Bool) (c' : Nat) (hs : RegistersSound s) (hroom : s.nbits.toNat < s.cfg.wValue)
    (hphase : PhaseSound (shiftIn b c' s)) : RegistersSound (shiftIn b c' s) := by
  obtain ⟨hn, ha⟩ := shiftIn_toNat b c' hs hroom
  refine ⟨by rw [hn]; exact hroom, ?_, hphase⟩
  have := hs.acc_lt
  have := Bool.toNat_le b
  rw [hn, ha, Nat.pow_succ]
  omega

theorem resetRule_sound (h : resetRule s = .ok t) : RegistersSound t := by
  cases h
  exact ⟨Nat.zero_le _, by simp, rfl, rfl, rfl, rfl⟩

theorem lengthCheckRule_sound (hs : RegistersSound s) (hp : s.phase = .lengthCheck) (h : lengthCheckRule s = .ok t) :
    RegistersSound t := by
  obtain ⟨hnbits, hacc, hphase⟩ := hs
  simp only [PhaseSound, hp] at hphase
  obtain ⟨hres, hcursor, hzero, hisctrl⟩ := hphase
  rw [lengthCheckRule] at h
  split at h
  case isTrue =>
    cases h
    exact ⟨hnbits, hacc, raiseFail_phaseSound _ hres⟩
  case isFalse hlen =>
    cases h
    exact ⟨hnbits, hacc, hres, hcursor, hzero, hisctrl, Nat.le_of_not_lt hlen⟩

theorem headerCheckRule_sound (hs : RegistersSound s) (hp : s.phase = .headerCheck) (h : headerCheckRule s = .ok t) :
    RegistersSound t := by
  obtain ⟨hnbits, hacc, hphase⟩ := hs
  simp only [PhaseSound, hp] at hphase
  obtain ⟨hres, -, hzero, hisctrl, hlen⟩ := hphase
  rw [headerCheckRule] at h
  split at h
  · cases h
  · split at h
    case isTrue =>
      cases h
      exact ⟨hnbits, hacc, hres, rfl, hzero, hisctrl, hlen⟩
    case isFalse =>
      cases h
      exact ⟨hnbits, hacc, raiseFail_phaseSound _ hres⟩

/-- The pair DISCRIMINATE reads is there, and decides the path (42_decoder.md R94). -/
theorem discriminateRule_eq (h : s.cursor + 1 < s.capture.length) :
    discriminateRule s = .ok { s with
      isctrl := bitAt s.cfg.timing s.capture s.cursor
      phase := if bitAt s.cfg.timing s.capture s.cursor then .ctrlRead else .dataRead } := by
  simp [discriminateRule, pairAt_eq_ok h, bitAt, h]

theorem discriminateRule_sound (hs : RegistersSound s) (hp : s.phase = .discriminate) (h : discriminateRule s = .ok t) :
    RegistersSound t := by
  obtain ⟨hnbits, hacc, hphase⟩ := hs
  simp only [PhaseSound, hp] at hphase
  obtain ⟨hres, hcursor, hzero, -, hlen⟩ := hphase
  have hmin := s.cfg.minCaptureLen_le
  have hnum : s.nbits.toNat = 0 := by simp [hzero]
  rw [discriminateRule_eq (by omega)] at h
  cases h
  refine ⟨hnbits, hacc, ?_⟩
  cases hbit : bitAt s.cfg.timing s.capture s.cursor with
  | true => exact ⟨hres, by simp [hnum, hcursor], by simp [hnum], rfl, hlen⟩
  | false =>
    refine ⟨hres, by simp [hnum, hcursor], ?_, by simp [hnum], rfl, hlen, hcursor ▸ hbit, ?_⟩
    · show s.cursor ≤ s.capture.length
      omega
    · simpa [hnum] using hacc

theorem ctrlReadRule_sound (hs : RegistersSound s) (hp : s.phase = .ctrlRead) (h : ctrlReadRule s = .ok t) :
    RegistersSound t := by
  have hphase := hs.phase_sound
  simp only [PhaseSound, hp] at hphase
  obtain ⟨hres, hcursor, hcount, hisctrl, hlen⟩ := hphase
  rw [ctrlReadRule, readBitRule_eq] at h
  split at h
  case isTrue hmore =>
    cases h
    have hroom := hmore.trans_le s.cfg.ctrlBits_le_wValue
    obtain ⟨hn, -⟩ := shiftIn_toNat (bitAt s.cfg.timing s.capture s.cursor) (s.cursor + 2) hs hroom
    apply hs.shiftIn _ _ hroom
    simp only [PhaseSound, shiftIn_phase, hp, hn, shiftIn_cursor, shiftIn_cfg, shiftIn_capture, shiftIn_res,
      shiftIn_isctrl]
    exact ⟨hres, by omega, hmore, hisctrl, hlen⟩
  case isFalse hdone =>
    cases h
    have hall : s.nbits.toNat = s.cfg.ctrlBits := by omega
    refine ⟨hs.nbits_le, hs.acc_lt, hres, hall ▸ hcursor, ?_, hisctrl, hlen⟩
    show s.nbits = _
    rw [← hall, BitVec.ofNat_toNat, BitVec.setWidth_eq]

/-- CTRL_CHECK ends the DECODE in failure or records the code that was read (42_decoder.md R97). It needs no capture, as
a received control byte has none (log 9). -/
theorem ctrlCheckRule_sound (hnbits : s.nbits.toNat ≤ s.cfg.wValue) (hacc : s.acc.toNat < 2 ^ s.nbits.toNat)
    (hres : s.res = ResultRegs.cleared) (hcount : s.nbits = BitVec.ofNat 7 s.cfg.ctrlBits)
    (h : ctrlCheckRule s = .ok t) : RegistersSound t := by
  rw [ctrlCheckRule] at h
  split at h
  case h_1 code hcode =>
    cases h
    have hlt : (ctrlPayload s.cfg.toParams s.acc).toNat < 2 ^ s.cfg.ctrlBits := by
      rw [ctrlPayload_toNat]
      exact Nat.mod_lt _ (Nat.two_pow_pos _)
    obtain ⟨hbyte, htype⟩ := eq_ctrlByte_of_decodeCtrlByte hlt hcode
    exact ⟨hnbits, hacc, by simp [hres, ResultRegs.cleared, statusNone], by simp [hres, ResultRegs.cleared],
      .inl ⟨rfl, code, htype, hcount, congrArg (BitVec.setWidth 64) hbyte⟩⟩
  case h_2 =>
    cases h
    exact ⟨hnbits, hacc, raiseFail_phaseSound _ hres⟩
  case h_3 =>
    cases h
    exact ⟨hnbits, hacc, raiseFail_phaseSound _ hres⟩

/-- A number whose top bit is 0 keeps a top bit of 0 as bits are shifted in below, the first bit being 0 (42_decoder.md
R102). -/
theorem double_add_lt_two_pow {a n : Nat} {b : Bool} (ha : a < 2 ^ (n - 1)) (hb : n = 0 → b = false) :
    2 * a + b.toNat < 2 ^ (n + 1 - 1) := by
  cases n with
  | zero => simpa [hb rfl] using ha
  | succ n =>
    have := Bool.toNat_le b
    rw [Nat.add_sub_cancel] at ha ⊢
    rw [Nat.pow_succ]
    omega

theorem dataReadRule_sound (hs : RegistersSound s) (hp : s.phase = .dataRead) (h : dataReadRule s = .ok t) :
    RegistersSound t := by
  have hphase := hs.phase_sound
  simp only [PhaseSound, hp] at hphase
  obtain ⟨hres, hcursor, hfits, hcount, hisctrl, hlen, hfirst, htop⟩ := hphase
  have hmin := s.cfg.minCaptureLen_le
  have hpos := s.cfg.maxDataBits_pos
  rw [dataReadRule, readBitRule_eq] at h
  split at h
  case isTrue hmore =>
    cases h
    have hroom := hmore.2.trans_le s.cfg.maxDataBits_le
    obtain ⟨hn, ha⟩ := shiftIn_toNat (bitAt s.cfg.timing s.capture s.cursor) (s.cursor + 2) hs hroom
    apply hs.shiftIn _ _ hroom
    simp only [PhaseSound, shiftIn_phase, hp, hn, ha, shiftIn_cursor, shiftIn_cfg, shiftIn_capture, shiftIn_res,
      shiftIn_isctrl]
    refine ⟨hres, by omega, by omega, by omega, hisctrl, hlen, hfirst, double_add_lt_two_pow htop fun hzero => ?_⟩
    rw [hcursor, hzero]
    exact hfirst
  case isFalse hdone =>
    cases h
    exact ⟨hs.nbits_le, hs.acc_lt, by simp [hres, ResultRegs.cleared, statusNone], by simp [hres, ResultRegs.cleared],
      .inr ⟨rfl, by simp [hres, ResultRegs.cleared], show 1 ≤ s.nbits.toNat by omega, hcount, htop⟩⟩

theorem finish_sound (hs : RegistersSound s) (hp : s.phase = .done) : RegistersSound (finish s) := by
  obtain ⟨hnbits, hacc, hphase⟩ := hs
  simp only [PhaseSound, hp] at hphase
  obtain ⟨-, -, hmessage⟩ := hphase
  exact ⟨hnbits, hacc, .inr ⟨rfl, rfl, hmessage⟩⟩

/-- Every rule of the state machine keeps the registers sound. -/
theorem decodeRule_sound (hs : RegistersSound s) (h : decodeRule s = .ok t) : RegistersSound t := by
  rw [decodeRule] at h
  split at h
  case h_1 => cases h; exact hs
  case h_2 => exact resetRule_sound h
  case h_3 hp => exact lengthCheckRule_sound hs hp h
  case h_4 hp => exact headerCheckRule_sound hs hp h
  case h_5 hp => exact discriminateRule_sound hs hp h
  case h_6 hp => exact ctrlReadRule_sound hs hp h
  case h_7 hp =>
    have hphase := hs.phase_sound
    simp only [PhaseSound, hp] at hphase
    obtain ⟨hres, -, hcount, -, -⟩ := hphase
    exact ctrlCheckRule_sound hs.nbits_le hs.acc_lt hres hcount h
  case h_8 hp => exact dataReadRule_sound hs hp h
  case h_9 hp => cases h; exact finish_sound hs hp

/-! ### The whole state -/

/-- The parts of a sound state that a DECODE reads and writes. -/
theorem Consistent.registersSound (hs : Consistent s) : RegistersSound s :=
  ⟨hs.nbits_le, hs.acc_lt, hs.phase_sound⟩

/-- With no SEND in progress, what a DECODE does keeps a state sound if it keeps the registers sound. -/
theorem Consistent.of_decodeFrame (hs : Consistent s) (hsend : s.sending = []) (hframe : DecodeFrame s t)
    (hfree : t.busy = false → t.phase = .idle) (hregs : RegistersSound t) : Consistent t where
  idle_when_free hb := ⟨hfree hb, hframe.sending_eq.trans hsend⟩
  one_command _ := hframe.sending_eq.trans hsend
  capture_fits := by rw [hframe.capture_eq, hframe.cfg_eq]; exact hs.capture_fits
  nbits_le := hregs.nbits_le
  acc_lt := hregs.acc_lt
  phase_sound := hregs.phase_sound
  ends_off := by rw [hframe.levelOpen_eq, hframe.sending_eq, hframe.trace_eq]; exact hs.ends_off

/-- The inputs, the host's last read and the count of free values are no part of a sound state. -/
theorem Consistent.withPorts (hs : Consistent s) (inputs : List Input) (hostRead : Option HostView) (freeCount : Nat) :
    Consistent { s with inputs := inputs, hostRead := hostRead, freeCount := freeCount } :=
  ⟨hs.idle_when_free, hs.one_command, hs.capture_fits, hs.nbits_le, hs.acc_lt, hs.phase_sound, hs.ends_off⟩

theorem Consistent.withInputs (hs : Consistent s) (inputs : List Input) : Consistent { s with inputs := inputs } :=
  hs.withPorts inputs s.hostRead s.freeCount

theorem readResults_consistent (hs : Consistent s) : Consistent (readResults s) := by
  rw [readResults_eq]
  exact hs.withPorts s.inputs _ _

/-- Registers as reset leaves them are sound whatever was before, if the emitter is off or its level open. -/
theorem clearRegisters_consistent (hs : Consistent s) (tr last : List Pulse) (level : Option Nat) (n : Nat)
    (hoff : level = none → tr = []) :
    Consistent { clearRegisters s with trace := tr, lastSend := last, levelOpen := level, freeCount := n } where
  idle_when_free _ := ⟨rfl, rfl⟩
  one_command _ := rfl
  capture_fits := hs.capture_fits
  nbits_le := Nat.zero_le _
  acc_lt := by simp
  phase_sound := resultsAtRest_cleared _
  ends_off := by
    rintro (hopen | hsend) d
    · simp [hoff hopen]
    · exact absurd rfl hsend

theorem powerOnReset_consistent (hs : Consistent s) : Consistent (powerOnReset s) :=
  clearRegisters_consistent hs [] [] none s.freeCount fun _ => rfl

theorem cutReset_consistent (hs : Consistent s) : Consistent (cutReset s) :=
  clearRegisters_consistent hs s.trace s.lastSend (some s.freeCount) (s.freeCount + 1) fun h => by cases h

/-! ### The capture port -/

theorem presentCapture_eq_next {xs : List Micros} (h : presentCapture xs s = .next t) :
    xs.length ≤ s.cfg.captureMax ∧ t = { s with capture := xs } := by
  rw [presentCapture] at h
  split at h
  · rename_i hlen
    cases h
    exact ⟨hlen, rfl⟩
  · cases h

/-- A capture may change where no DECODE is in progress (70_reset_and_hazards.md R136). -/
theorem presentCapture_consistent {xs : List Micros} (hs : Consistent s) (hp : s.phase = .idle)
    (h : presentCapture xs s = .next t) : Consistent t := by
  obtain ⟨hlen, rfl⟩ := presentCapture_eq_next h
  have hphase := hs.phase_sound
  refine ⟨hs.idle_when_free, hs.one_command, hlen, hs.nbits_le, hs.acc_lt, ?_, hs.ends_off⟩
  simp only [PhaseSound, hp] at hphase ⊢
  exact hphase

theorem captureWhileBusy_consistent {xs : List Micros} (hs : Consistent s) (h : captureWhileBusy xs s = .next t) :
    Consistent t := by
  rw [captureWhileBusy] at h
  split at h
  case h_1 hp => exact presentCapture_consistent hs hp h
  case h_2 => cases h

/-! ### A SEND -/

/-- The pulses do not leave the emitter on. -/
def EndsOff (ps : List Pulse) : Prop := ∀ d, ps.getLast? ≠ some (.mark d)

/-- Pulses that end off may follow any trace, and no pulses one that ends off. -/
theorem EndsOff.append {tr ps : List Pulse} (hps : EndsOff ps) (htr : ps = [] → EndsOff tr) : EndsOff (tr ++ ps) := by
  cases ps with
  | nil => simpa using htr rfl
  | cons p ps =>
    intro d
    rw [List.getLast?_append_of_ne_nil _ (List.cons_ne_nil p ps)]
    exact hps d

theorem endsOff_nil : EndsOff [] := fun _ h => by cases h

/-- A frame ends with the end marker's space (30_encoding.md R55; 41_sender.md R85). -/
theorem framePulses_endsOff (tm : Timing) (payload : List Bool) : EndsOff (framePulses tm payload) := by
  intro d
  simp [framePulses, endPulses]

theorem controlPulses_endsOff (c : Config) (code : ControlCode) : EndsOff (controlPulses c code) :=
  framePulses_endsOff _ _

theorem dataPulses_endsOff (c : Config) (v : DataValue) (n : BitVec 8) : EndsOff (dataPulses c v n) := by
  rw [dataPulses]
  split
  · exact endsOff_nil
  · exact framePulses_endsOff _ _

theorem Consistent.trace_endsOff (hs : Consistent s) (hsend : s.sending = []) (hopen : s.levelOpen = none) :
    EndsOff s.trace := by
  have h := hs.ends_off (.inl hopen)
  rwa [hsend, List.append_nil] at h

theorem sendCommand_consistent {ps : List Pulse} (hs : Consistent s) (hps : EndsOff ps)
    (h : sendCommand ps s = .next t) : Consistent t := by
  obtain ⟨hb, rfl⟩ := sendCommand_eq_next h
  obtain ⟨hp, hsend⟩ := hs.idle_when_free hb
  refine ⟨hs.idle_when_free, hs.one_command, hs.capture_fits, hs.nbits_le, hs.acc_lt, hs.phase_sound, ?_⟩
  intro hknown
  simp only [hsend, ne_eq, not_true_eq_false, or_false, List.append_nil] at hknown ⊢
  exact hps.append fun hnil => hs.trace_endsOff hsend (by simpa [hnil] using hknown)

theorem beginSend_consistent {ps : List Pulse} (hs : Consistent s) (hb : s.busy = false) (hps : EndsOff ps) :
    Consistent (beginSend ps s) := by
  obtain ⟨hp, hsend⟩ := hs.idle_when_free hb
  refine ⟨fun h => (by cases h), fun h => absurd hp h, hs.capture_fits, hs.nbits_le, hs.acc_lt, hs.phase_sound, ?_⟩
  intro hknown
  exact hps.append fun hnil => hs.trace_endsOff hsend (by simpa [hnil] using hknown)

theorem sendRule_consistent (hs : Consistent s) (hp : s.phase = .idle) : Consistent (sendRule s) := by
  rw [sendRule]
  split
  case h_1 hdone =>
    exact ⟨fun _ => ⟨hp, hdone⟩, hs.one_command, hs.capture_fits, hs.nbits_le, hs.acc_lt, hs.phase_sound, hs.ends_off⟩
  case h_2 p ps hmore =>
    have hpulses := hs.ends_off (.inr (by simp [hmore]))
    rw [hmore] at hpulses
    refine ⟨fun hfree => ?_, fun h => absurd hp h, hs.capture_fits, hs.nbits_le, hs.acc_lt, hs.phase_sound, ?_⟩
    · exact absurd (hs.idle_when_free hfree).2 (by simp [hmore])
    · intro _
      simpa using hpulses

/-! ### A DECODE -/

theorem beginDecode_consistent (hs : Consistent s) (hb : s.busy = false) : Consistent (beginDecode s) := by
  obtain ⟨hp, hsend⟩ := hs.idle_when_free hb
  have hphase := hs.phase_sound
  simp only [PhaseSound, hp] at hphase
  exact hs.of_decodeFrame hsend (beginDecode_decodeFrame s) (fun h => by cases h) ⟨hs.nbits_le, hs.acc_lt, hphase⟩

theorem decodeRule_consistent (hs : Consistent s) (h : decodeRule s = .ok t) : Consistent t := by
  by_cases hp : s.phase = .idle
  · rw [decodeRule, hp] at h
    cases h
    exact hs
  · exact hs.of_decodeFrame (hs.one_command hp) (decodeRule_decodeFrame h)
      (decodeRule_idle_when_free (fun hb => (hs.idle_when_free hb).1) h) (decodeRule_sound hs.registersSound h)

theorem execDecode_consistent (hs : Consistent s) (h : execDecode s = .next t) : Consistent t := by
  obtain ⟨hb, hrun⟩ := execDecode_eq_next h
  exact decodeRun_keeps Consistent (fun _ _ => decodeRule_consistent) (beginDecode_consistent hs hb) hrun

/-- The payload of a received byte, in ACC, has `CTRL_BITS` bits. -/
theorem atCtrlCheck_acc_lt (b : ControlByte) (s : State) : (atCtrlCheck b s).acc.toNat < 2 ^ s.cfg.ctrlBits := by
  rw [atCtrlCheck_acc, BitVec.toNat_setWidth, ctrlPayload_toNat]
  exact (Nat.mod_le _ _).trans_lt (Nat.mod_lt _ (Nat.two_pow_pos _))

theorem receiveControl_consistent {b : ControlByte} (hs : Consistent s) (h : receiveControl b s = .next t) :
    Consistent t := by
  obtain ⟨hb, hrun⟩ := receiveControl_eq_next h
  obtain ⟨-, hsend⟩ := hs.idle_when_free hb
  have h8 := s.cfg.ctrlBits_le
  have hcount : (atCtrlCheck b s).nbits.toNat = s.cfg.ctrlBits := by
    rw [atCtrlCheck_nbits, BitVec.toNat_ofNat]
    omega
  obtain ⟨u, hu⟩ : ∃ u, decodeRule (atCtrlCheck b s) = .ok u := ⟨_, ctrlCheckRule_eq _⟩
  have hregs : RegistersSound u :=
    ctrlCheckRule_sound (hcount ▸ s.cfg.ctrlBits_le_wValue) (hcount ▸ atCtrlCheck_acc_lt b s) rfl rfl hu
  have hmid : Consistent u := hs.of_decodeFrame hsend ((atCtrlCheck_decodeFrame b s).trans (decodeRule_decodeFrame hu))
    (decodeRule_idle_when_free (fun h => by cases h) hu) hregs
  rw [decodeRun_succ (by simp) hu] at hrun
  exact decodeRun_keeps Consistent (fun _ _ => decodeRule_consistent) hmid hrun

/-! ### A step -/

/-- A command, run as one step. -/
theorem exec_ofCommand_consistent (c : Command) (hs : Consistent s) (h : exec (Instr.ofCommand c) s = .next t) :
    Consistent t := by
  cases c with
  | sendControl code =>
    exact sendCommand_consistent hs (controlPulses_endsOff _ code) (exec_ofSendControl code s ▸ h)
  | sendData v n => exact sendCommand_consistent hs (dataPulses_endsOff _ v n) h
  | decode => exact execDecode_consistent hs h

/-- A command, begun to run stepwise. -/
theorem beginCommand_consistent (c : Command) (hs : Consistent s) (hb : s.busy = false) :
    Consistent (beginCommand c s) := by
  cases c with
  | sendControl code => exact beginSend_consistent hs hb (controlPulses_endsOff _ code)
  | sendData v n => exact beginSend_consistent hs hb (dataPulses_endsOff _ v n)
  | decode => exact beginDecode_consistent hs hb

theorem runWord_consistent {w : CommandWord} (hs : Consistent s) (h : runWord w s = .next t) : Consistent t := by
  rw [runWord, decode] at h
  cases hw : decodeCommand w with
  | ok c => rw [hw] at h; exact exec_ofCommand_consistent c hs h
  | error e => rw [hw] at h; cases h

theorem presentWord_consistent {w : CommandWord} (hs : Consistent s) (hb : s.busy = false)
    (h : presentWord w s = .next t) : Consistent t := by
  rw [presentWord] at h
  split at h
  · cases h; exact beginCommand_consistent _ hs hb
  · cases h

theorem runCtrlByte_consistent {b : ControlByte} (hs : Consistent s) (h : runCtrlByte b s = .next t) : Consistent t := by
  rw [runCtrlByte] at h
  split at h
  · rw [exec_ofControlCode] at h
    exact receiveControl_consistent hs h
  · exact receiveControl_consistent hs h

theorem commandRule_consistent (hs : Consistent s) (h : commandRule s = .next t) : Consistent t := by
  rw [commandRule] at h
  split at h
  case h_1 hp => cases h; exact sendRule_consistent hs hp
  case h_2 => exact decodeRule_consistent hs (ofRun_eq_next.mp h)

theorem busyStep_consistent (hs : Consistent s) (h : busyStep s = .next t) : Consistent t := by
  rw [busyStep] at h
  cases hin : s.inputs with
  | nil => rw [hin] at h; exact commandRule_consistent hs h
  | cons i rest =>
    rw [hin] at h
    have hrest := hs.withInputs rest
    cases i with
    | quiet => exact commandRule_consistent hrest h
    | command w => cases h
    | present w => cases h
    | ctrlByte b => cases h
    | captureRaw xs => exact captureWhileBusy_consistent hrest h
    | captureRef g => exact captureWhileBusy_consistent hrest h
    | readResults => cases h; exact readResults_consistent hrest
    | reset => cases h; exact cutReset_consistent hrest

theorem idleStep_consistent (hs : Consistent s) (hb : s.busy = false) (h : idleStep s = .next t) : Consistent t := by
  obtain ⟨hp, -⟩ := hs.idle_when_free hb
  rw [idleStep] at h
  cases hin : s.inputs with
  | nil => rw [hin] at h; cases h; exact hs
  | cons i rest =>
    rw [hin] at h
    have hrest := hs.withInputs rest
    cases i with
    | quiet => cases h; exact hrest
    | command w => exact runWord_consistent hrest h
    | present w => exact presentWord_consistent hrest hb h
    | ctrlByte b => exact runCtrlByte_consistent hrest h
    | captureRaw xs => exact presentCapture_consistent hrest hp h
    | captureRef g => exact presentCapture_consistent hrest hp h
    | readResults => cases h; exact readResults_consistent hrest
    | reset => cases h; exact powerOnReset_consistent hrest

/-- Settles O52: the registers are cleared, no command is in progress and nothing has been emitted. -/
theorem resetIsConsistent : Obligations.ResetIsConsistent := fun c =>
  { idle_when_free := fun _ => ⟨rfl, rfl⟩
    one_command := fun _ => rfl
    capture_fits := Nat.zero_le _
    nbits_le := Nat.zero_le _
    acc_lt := by simp [State.resetWith]
    phase_sound := resultsAtRest_cleared c
    ends_off := fun _ => endsOff_nil }

/-- Settles O53, by what is presented at BUSY = 0 and at BUSY = 1. -/
theorem everyStepKeepsTheStateConsistent : Obligations.EveryStepKeepsTheStateConsistent := by
  intro s t hs h
  rw [step] at h
  split at h
  case isTrue => exact busyStep_consistent hs h
  case isFalse hb => exact idleStep_consistent hs (Bool.eq_false_iff.mpr hb) h

end Sys2Proof.Machine
end

section
/-! PROOFS. DECODE as one step: the run of the state machine from RESET to its end is the closed form of 42_decoder.md R101,
so that a DECODE completes on every capture. -/

namespace Sys2Proof.Machine

variable {s t : State}

/-! ### The bits a DECODE reads, path by path -/

theorem bitsRead_of_short {c : Config} {xs : List Micros} (hlen : xs.length < c.minCaptureLen) : bitsRead c xs = 0 := by
  simp [bitsRead, hlen]

theorem bitsRead_of_no_header {c : Config} {xs : List Micros} (hh : hasHeader c.timing xs = false) :
    bitsRead c xs = 0 := by
  simp [bitsRead, hh]

theorem bitsRead_of_header {c : Config} {xs : List Micros} (hlen : c.minCaptureLen ≤ xs.length)
    (hh : hasHeader c.timing xs = true) :
    bitsRead c xs = if isControlFrame c.timing xs then c.ctrlBits else dataCount c xs := by
  simp [bitsRead, hh, Nat.not_lt.mpr hlen]

/-- A capture long enough to be examined has a first payload pair, and the pair is read as a bit (42_decoder.md R94). -/
theorem isControlFrame_eq_bitAt {c : Config} {xs : List Micros} (hlen : c.minCaptureLen ≤ xs.length) :
    isControlFrame c.timing xs = bitAt c.timing xs 3 := by
  have : 3 + 1 < xs.length := c.minCaptureLen_le.trans hlen
  simp [isControlFrame, bitAt, this]

theorem dataCount_pos {c : Config} {xs : List Micros} (hlen : c.minCaptureLen ≤ xs.length) : 0 < dataCount c xs := by
  have := c.minCaptureLen_le
  have := c.maxDataBits_pos
  rw [dataCount]
  omega

theorem ctrlBits_pos (c : Config) : 0 < c.ctrlBits := by
  have := c.ctrlBits_split
  have := c.ctrlPrefixBits_pos
  omega

/-- With a matching header at least one bit is read, on either path. -/
theorem bitsRead_pos {c : Config} {xs : List Micros} (hlen : c.minCaptureLen ≤ xs.length)
    (hh : hasHeader c.timing xs = true) : 0 < bitsRead c xs := by
  rw [bitsRead_of_header hlen hh]
  split
  · exact ctrlBits_pos c
  · exact dataCount_pos hlen

/-! ### The run up to DISCRIMINATE -/

/-- A DECODE in progress in a phase, its registers as state RESET clears them (42_decoder.md R91). -/
def clearedAt (p : Phase) (s : State) : State := { clearContext (beginDecode s) with phase := p }

theorem decodeRule_beginDecode (s : State) : decodeRule (beginDecode s) = .ok (clearedAt .lengthCheck s) :=
  decodeRule_reset rfl

/-- A DECODE whose capture is long enough and opens with a header (42_decoder.md R91 to R93). -/
def atDiscriminate (s : State) : State :=
  { clearedAt .discriminate s with cursor := 3 }

/-- RESET, then LENGTH_CHECK on a capture too short. -/
theorem decodeRun_of_short (hlen : s.capture.length < s.cfg.minCaptureLen) (n : Nat) :
    decodeRun (n + 2) (beginDecode s) = .ok (decodedState s) := by
  have hcheck : decodeRule (clearedAt .lengthCheck s) =
      .ok (raiseFail .bufferTooShort (clearedAt .lengthCheck s)) := by
    simp [decodeRule, lengthCheckRule, clearedAt, hlen]
  rw [decodeRun_succ (by simp) (decodeRule_beginDecode s), decodeRun_succ (by simp [clearedAt]) hcheck, decodeRun_idle rfl]
  simp [decodedState, bitsRead_of_short hlen, decodeResult, hlen, bitSum_zero, resultRegs, raiseFail, clearedAt,
    clearContext, beginDecode, accept]

/-- RESET and LENGTH_CHECK on a capture long enough. -/
theorem decodeRun_to_headerCheck (hlen : s.cfg.minCaptureLen ≤ s.capture.length) (n : Nat) :
    decodeRun (n + 2) (beginDecode s) = decodeRun n (clearedAt .headerCheck s) := by
  have hcheck : decodeRule (clearedAt .lengthCheck s) =
      .ok (clearedAt .headerCheck s) := by
    simp [decodeRule, lengthCheckRule, clearedAt, Nat.not_lt.mpr hlen]
  rw [decodeRun_succ (by simp) (decodeRule_beginDecode s), decodeRun_succ (by simp [clearedAt]) hcheck]

/-- The pair HEADER_CHECK reads is there, and decides (42_decoder.md R93). -/
theorem headerCheckRule_eq (h : 2 < s.capture.length) :
    headerCheckRule s = .ok (if hasHeader s.cfg.timing s.capture then { s with cursor := 3, phase := .discriminate }
      else raiseFail .headerMismatch s) := by
  rw [headerCheckRule, pairAt_eq_ok h]
  exact (apply_ite Except.ok _ _ _).symm

theorem decodeRule_headerCheck (hp : s.phase = .headerCheck) : decodeRule s = headerCheckRule s := by
  simp [decodeRule, hp]

theorem decodeRule_discriminate (hp : s.phase = .discriminate) : decodeRule s = discriminateRule s := by
  simp [decodeRule, hp]

theorem decodeRun_of_no_header (hlen : s.cfg.minCaptureLen ≤ s.capture.length)
    (hh : hasHeader s.cfg.timing s.capture = false) (n : Nat) :
    decodeRun (n + 3) (beginDecode s) = .ok (decodedState s) := by
  have hmin := s.cfg.minCaptureLen_le
  have hcheck : decodeRule (clearedAt .headerCheck s) =
      .ok (raiseFail .headerMismatch (clearedAt .headerCheck s)) := by
    rw [decodeRule_headerCheck rfl, headerCheckRule_eq (s := clearedAt .headerCheck s) (show 2 < s.capture.length by omega)]
    simp [hh, clearedAt]
  rw [decodeRun_to_headerCheck hlen, decodeRun_succ (by simp [clearedAt]) hcheck, decodeRun_idle rfl]
  simp [decodedState, bitsRead_of_no_header hh, decodeResult, Nat.not_lt.mpr hlen, hh, bitSum_zero, resultRegs, raiseFail,
    clearedAt, clearContext, beginDecode, accept]

theorem decodeRun_to_discriminate (hlen : s.cfg.minCaptureLen ≤ s.capture.length)
    (hh : hasHeader s.cfg.timing s.capture = true) (n : Nat) :
    decodeRun (n + 3) (beginDecode s) = decodeRun n (atDiscriminate s) := by
  have hmin := s.cfg.minCaptureLen_le
  have hcheck : decodeRule (clearedAt .headerCheck s) = .ok (atDiscriminate s) := by
    rw [decodeRule_headerCheck rfl, headerCheckRule_eq (s := clearedAt .headerCheck s) (show 2 < s.capture.length by omega)]
    simp [hh, atDiscriminate, clearedAt]
  rw [decodeRun_to_headerCheck hlen, decodeRun_succ (by simp [clearedAt]) hcheck]

/-- The DECODE on the path its first payload pair names, with no bit read (42_decoder.md R94). -/
def afterDiscriminate (s : State) : State :=
  { atDiscriminate s with
    isctrl := isControlFrame s.cfg.timing s.capture
    phase := if isControlFrame s.cfg.timing s.capture then .ctrlRead else .dataRead }

theorem decodeRun_to_reads (hlen : s.cfg.minCaptureLen ≤ s.capture.length)
    (hh : hasHeader s.cfg.timing s.capture = true) (n : Nat) :
    decodeRun (n + 4) (beginDecode s) = decodeRun n (afterDiscriminate s) := by
  have hrule : decodeRule (atDiscriminate s) = .ok (afterDiscriminate s) := by
    have hpair : (atDiscriminate s).cursor + 1 < (atDiscriminate s).capture.length := s.cfg.minCaptureLen_le.trans hlen
    rw [decodeRule_discriminate rfl, discriminateRule_eq hpair, afterDiscriminate, isControlFrame_eq_bitAt hlen]
    rfl
  rw [decodeRun_to_discriminate hlen hh, decodeRun_succ (by simp [atDiscriminate, clearedAt]) hrule]

/-! ### The two paths -/

theorem decodeRun_of_data (hlen : s.cfg.minCaptureLen ≤ s.capture.length)
    (hh : hasHeader s.cfg.timing s.capture = true) (hc : isControlFrame s.cfg.timing s.capture = false) (m : Nat) :
    decodeRun (dataCount s.cfg s.capture + (2 + m) + 4) (beginDecode s) = .ok (decodedState s) := by
  have hread := bitsRead_of_header hlen hh
  have hpos := dataCount_pos hlen
  rw [decodeRun_to_reads hlen hh]
  refine (decodeRun_dataRead (afterDiscriminate s) 0 _ (by simp [afterDiscriminate, hc]) rfl rfl rfl (Nat.zero_add _)
    m).trans ?_
  simp [decodedState, hread, hc, hpos.ne', decodeResult, Nat.not_lt.mpr hlen, hh, resultRegs, afterDiscriminate,
    atDiscriminate, clearedAt, clearContext, beginDecode, accept, ResultRegs.cleared]

/-- CTRL_CHECK and, after a code has been recorded, DONE: one of the three ends of the control path (42_decoder.md R97,
R99). -/
theorem decodeRun_ctrlCheck (hp : s.phase = .ctrlCheck) (m : Nat) :
    decodeRun (m + 2) s = .ok
      (if s.acc.toNat % 2 ^ s.cfg.ctrlBits / 2 ^ s.cfg.ctrlTypeBits ≠ s.cfg.ctrlPrefix.toNat
        then raiseFail .prefixMismatch s
      else if s.acc.toNat % 2 ^ s.cfg.ctrlTypeBits ∉ [1, 2, 3, 4] then raiseFail .typeInvalid s
      else finish (recordControl (ctrlPayload s.cfg.toParams s.acc) s)) := by
  rw [decodeRun_succ (by simp [hp]) ((decodeRule_ctrlCheck hp).trans (ctrlCheckRule_eq s))]
  split_ifs
  · exact decodeRun_idle (raiseFail_phase s _)
  · rw [decodeRun_succ (by simp) (show decodeRule (recordControl _ s) = .ok (finish (recordControl _ s)) from rfl)]
    exact decodeRun_idle (finish_phase _)
  · exact decodeRun_idle (raiseFail_phase s _)

theorem receivedByte_lt (c : Config) (xs : List Micros) : receivedByte c xs < 2 ^ c.ctrlBits := bitSum_lt _ _ _

theorem receivedByte_lt_byte (c : Config) (xs : List Micros) : receivedByte c xs < 2 ^ 8 :=
  (receivedByte_lt c xs).trans_le (Nat.pow_le_pow_right (by decide) c.ctrlBits_le)

/-- The control payload a received byte leaves in ACC is its low `CTRL_BITS` bits. -/
theorem atCtrlCheck_acc_toNat (b : ControlByte) (s : State) :
    (atCtrlCheck b s).acc.toNat = b.toNat % 2 ^ s.cfg.ctrlBits := by
  have := (ctrlPayload s.cfg.toParams b).isLt
  rw [atCtrlCheck_acc, BitVec.toNat_setWidth, Nat.mod_eq_of_lt (by omega), ctrlPayload_toNat]

/-- The core as the reads of the control path leave it: as the reception of the byte that was read finds it (log 9). -/
def atPayload (s : State) : State := atCtrlCheck (BitVec.ofNat 8 (receivedByte s.cfg s.capture)) s

theorem atPayload_acc (s : State) : (atPayload s).acc = BitVec.ofNat 64 (receivedByte s.cfg s.capture) := by
  have hlt := receivedByte_lt_byte s.cfg s.capture
  apply BitVec.eq_of_toNat_eq
  rw [atPayload, atCtrlCheck_acc_toNat, BitVec.toNat_ofNat, BitVec.toNat_ofNat, Nat.mod_eq_of_lt hlt,
    Nat.mod_eq_of_lt (receivedByte_lt _ _), Nat.mod_eq_of_lt (by omega)]

theorem atPayload_acc_toNat (s : State) : (atPayload s).acc.toNat = receivedByte s.cfg s.capture := by
  have hlt := receivedByte_lt_byte s.cfg s.capture
  rw [atPayload_acc, BitVec.toNat_ofNat, Nat.mod_eq_of_lt (by omega)]

theorem decodeRun_to_ctrlCheck (hlen : s.cfg.minCaptureLen ≤ s.capture.length)
    (hh : hasHeader s.cfg.timing s.capture = true) (hc : isControlFrame s.cfg.timing s.capture = true) (m : Nat) :
    decodeRun (s.cfg.ctrlBits + (1 + m) + 4) (beginDecode s) = decodeRun m (atPayload s) := by
  have hstate : { atPayload s with acc := BitVec.ofNat 64 (receivedByte s.cfg s.capture) } = atPayload s := by
    rw [← atPayload_acc]
  rw [decodeRun_to_reads hlen hh, ← hstate]
  refine (decodeRun_ctrlRead (afterDiscriminate s) 0 _ (by simp [afterDiscriminate, hc]) rfl rfl rfl (Nat.zero_add _)
    m).trans (congrArg (decodeRun m) ?_)
  simp [afterDiscriminate, atDiscriminate, clearedAt, clearContext, beginDecode, accept, atPayload, atCtrlCheck, hc,
    receivedByte]

/-- On the control path the closed form leaves the context as the reads left it. -/
theorem decodedState_eq_atPayload (hlen : s.cfg.minCaptureLen ≤ s.capture.length)
    (hh : hasHeader s.cfg.timing s.capture = true) (hc : isControlFrame s.cfg.timing s.capture = true) :
    decodedState s = { atPayload s with
      res := resultRegs s.cfg (decodeResult s.cfg s.capture), phase := .idle, busy := false } := by
  have hread : bitsRead s.cfg s.capture = s.cfg.ctrlBits := by rw [bitsRead_of_header hlen hh, if_pos hc]
  have hacc := atPayload_acc s
  have hpos := ctrlBits_pos s.cfg
  rw [atPayload, atCtrlCheck_acc, receivedByte] at hacc
  simp [decodedState, hread, hc, hpos.ne', atPayload, atCtrlCheck, clearContext, accept, hacc, receivedByte]

/-- The registers of a recorded control frame are the closed form's (42_decoder.md R100). -/
theorem recordControl_atPayload (s : State) :
    (finish (recordControl (ctrlPayload s.cfg.toParams (atPayload s).acc) (atPayload s))).res =
      resultRegs s.cfg (.control (receivedType s.cfg s.capture) (receivedByte s.cfg s.capture)) := by
  have hpayload : (ctrlPayload s.cfg.toParams (atPayload s).acc).toNat = receivedByte s.cfg s.capture := by
    rw [ctrlPayload_toNat, atPayload_acc_toNat, Nat.mod_eq_of_lt (receivedByte_lt _ _)]
  have htype : (typeField s.cfg.toParams (ctrlPayload s.cfg.toParams (atPayload s).acc)).setWidth 3 =
      BitVec.ofNat 3 (receivedType s.cfg s.capture) := by
    apply BitVec.eq_of_toNat_eq
    rw [BitVec.toNat_setWidth, typeField_toNat, hpayload, BitVec.toNat_ofNat, receivedType]
  have hvalue : (ctrlPayload s.cfg.toParams (atPayload s).acc).setWidth 64 =
      BitVec.ofNat 64 (receivedByte s.cfg s.capture) := by
    apply BitVec.eq_of_toNat_eq
    rw [BitVec.toNat_setWidth, hpayload, BitVec.toNat_ofNat]
  rw [finish_res, recordControl_res, resultRegs, ← htype, ← hvalue]
  rfl

theorem decodeRun_of_control (hlen : s.cfg.minCaptureLen ≤ s.capture.length)
    (hh : hasHeader s.cfg.timing s.capture = true) (hc : isControlFrame s.cfg.timing s.capture = true) (m : Nat) :
    decodeRun (s.cfg.ctrlBits + (1 + (m + 2)) + 4) (beginDecode s) = .ok (decodedState s) := by
  have hprefix : (atPayload s).acc.toNat % 2 ^ s.cfg.ctrlBits / 2 ^ s.cfg.ctrlTypeBits =
      receivedPrefix s.cfg s.capture := by
    rw [atPayload_acc_toNat, Nat.mod_eq_of_lt (receivedByte_lt _ _), receivedPrefix]
  have htype : (atPayload s).acc.toNat % 2 ^ s.cfg.ctrlTypeBits = receivedType s.cfg s.capture := by
    rw [atPayload_acc_toNat, receivedType]
  rw [decodeRun_to_ctrlCheck hlen hh hc, decodeRun_ctrlCheck rfl, decodedState_eq_atPayload hlen hh hc, decodeResult,
    if_neg (Nat.not_lt.mpr hlen), if_neg (not_not.mpr hh), if_pos hc]
  simp only [show (atPayload s).cfg = s.cfg from rfl, hprefix, htype]
  split_ifs
  · rfl
  · rw [← recordControl_atPayload]
    rfl
  · rfl

/-! ### The whole DECODE -/

/-- A DECODE ends in the state of the closed form, within the steps of 42_decoder.md R105. -/
theorem decodeRun_beginDecode (s : State) : decodeRun decodeFuel (beginDecode s) = .ok (decodedState s) := by
  have hctrl := s.cfg.ctrlBits_le
  have hvalue := s.cfg.wValue_le
  have hdata := s.cfg.maxDataBits_le
  have hcount : dataCount s.cfg s.capture ≤ s.cfg.maxDataBits := Nat.min_le_left _ _
  by_cases hlen : s.capture.length < s.cfg.minCaptureLen
  · exact decodeRun_of_short hlen 68
  · rw [Nat.not_lt] at hlen
    cases hh : hasHeader s.cfg.timing s.capture with
    | false => exact decodeRun_of_no_header hlen hh 67
    | true =>
      cases hc : isControlFrame s.cfg.timing s.capture with
      | false =>
        have hfuel : decodeFuel = dataCount s.cfg s.capture + (2 + (64 - dataCount s.cfg s.capture)) + 4 := by
          rw [decodeFuel]
          omega
        rw [hfuel]
        exact decodeRun_of_data hlen hh hc _
      | true =>
        have hfuel : decodeFuel = s.cfg.ctrlBits + (1 + ((63 - s.cfg.ctrlBits) + 2)) + 4 := by
          rw [decodeFuel]
          omega
        rw [hfuel]
        exact decodeRun_of_control hlen hh hc _

/-- DECODE at BUSY = 0 completes on every capture (42_decoder.md R90, R101). -/
theorem execDecode_eq (hb : s.busy = false) : execDecode s = .next (decodedState s) := by
  rw [execDecode, if_neg (by simp [hb]), decodeRun_beginDecode]
  rfl

end Sys2Proof.Machine
end

section
/-! PROOFS. No step faults (20_memory.md R37, R48): at BUSY = 0 whatever the state is, and in a DECODE because the rules that
read samples without a test of the length run only on a capture that has them. -/

namespace Sys2Proof.Machine

variable {s : State} {f : Fault}

/-! ### The rules of the state machine -/

/-- The two rules that can read past the capture, HEADER_CHECK and DISCRIMINATE, do not where their pair is there; every
other rule answers in any state. -/
theorem decodeRule_total (hheader : s.phase = .headerCheck → 2 < s.capture.length)
    (hfirst : s.phase = .discriminate → s.cursor + 1 < s.capture.length) : ∃ t, decodeRule s = .ok t := by
  rw [decodeRule]
  split
  case h_1 => exact ⟨_, rfl⟩
  case h_2 => exact ⟨_, rfl⟩
  case h_3 => exact ⟨_, (apply_ite Except.ok _ _ _).symm⟩
  case h_4 hp => exact ⟨_, headerCheckRule_eq (hheader hp)⟩
  case h_5 hp => exact ⟨_, discriminateRule_eq (hfirst hp)⟩
  case h_6 => rw [ctrlReadRule, readBitRule_eq]; exact ⟨_, (apply_ite Except.ok _ _ _).symm⟩
  case h_7 => exact ⟨_, ctrlCheckRule_eq s⟩
  case h_8 => rw [dataReadRule, readBitRule_eq]; exact ⟨_, (apply_ite Except.ok _ _ _).symm⟩
  case h_9 => exact ⟨_, rfl⟩

/-- In a sound state the pairs are there: a capture of `MIN_CAPTURE_LEN` samples has the samples 1 to 4 (42_decoder.md R92
to R94). -/
theorem decodeRule_total_of_phaseSound (hs : PhaseSound s) : ∃ t, decodeRule s = .ok t := by
  have hmin := s.cfg.minCaptureLen_le
  apply decodeRule_total
  · intro hp
    simp only [PhaseSound, hp] at hs
    obtain ⟨-, -, -, -, hlen⟩ := hs
    omega
  · intro hp
    simp only [PhaseSound, hp] at hs
    obtain ⟨-, hcursor, -, -, hlen⟩ := hs
    omega

/-! ### Commands and ports -/

theorem sendCommand_ne_fault (ps : List Pulse) : sendCommand ps s ≠ .fault f := by
  rw [sendCommand]
  split <;> nofun

theorem execDecode_ne_fault : execDecode s ≠ .fault f := by
  cases hb : s.busy with
  | false => rw [execDecode_eq hb]; nofun
  | true => rw [execDecode, if_pos hb]; nofun

theorem receiveControl_ne_fault (b : ControlByte) : receiveControl b s ≠ .fault f := by
  rw [receiveControl, decodeRun_ctrlCheck rfl 0]
  split <;> nofun

theorem exec_ofCommand_ne_fault (c : Command) : exec (Instr.ofCommand c) s ≠ .fault f := by
  cases c with
  | sendControl code => exact exec_ofSendControl code s ▸ sendCommand_ne_fault _
  | sendData v n => exact sendCommand_ne_fault _
  | decode => exact execDecode_ne_fault

theorem runWord_ne_fault (w : CommandWord) : runWord w s ≠ .fault f := by
  rw [runWord, decode]
  cases decodeCommand w with
  | ok c => exact exec_ofCommand_ne_fault c
  | error e => nofun

theorem presentWord_ne_fault (w : CommandWord) : presentWord w s ≠ .fault f := by
  rw [presentWord]
  split <;> nofun

theorem runCtrlByte_ne_fault (b : ControlByte) : runCtrlByte b s ≠ .fault f := by
  rw [runCtrlByte]
  split
  · rw [exec_ofControlCode]
    exact receiveControl_ne_fault _
  · exact receiveControl_ne_fault b

theorem presentCapture_ne_fault (xs : List Micros) : presentCapture xs s ≠ .fault f := by
  rw [presentCapture]
  split <;> nofun

theorem captureWhileBusy_ne_fault (xs : List Micros) : captureWhileBusy xs s ≠ .fault f := by
  rw [captureWhileBusy]
  split
  · exact presentCapture_ne_fault xs
  · nofun

theorem commandRule_ne_fault (hs : PhaseSound s) : commandRule s ≠ .fault f := by
  obtain ⟨t, ht⟩ := decodeRule_total_of_phaseSound hs
  rw [commandRule, ht]
  split <;> nofun

/-! ### A step -/

/-- At BUSY = 0 no step faults, in a sound state or not. -/
theorem idleStep_ne_fault : idleStep s ≠ .fault f := by
  rw [idleStep]
  cases s.inputs with
  | nil => nofun
  | cons i rest =>
    cases i with
    | quiet => nofun
    | command w => exact runWord_ne_fault w
    | present w => exact presentWord_ne_fault w
    | ctrlByte b => exact runCtrlByte_ne_fault b
    | captureRaw xs => exact presentCapture_ne_fault xs
    | captureRef g => exact presentCapture_ne_fault _
    | readResults => nofun
    | reset => nofun

theorem busyStep_ne_fault (hs : PhaseSound s) : busyStep s ≠ .fault f := by
  rw [busyStep]
  cases s.inputs with
  | nil => exact commandRule_ne_fault hs
  | cons i rest =>
    cases i with
    | quiet => exact commandRule_ne_fault (s := { s with inputs := rest }) hs
    | command w => nofun
    | present w => nofun
    | ctrlByte b => nofun
    | captureRaw xs => exact captureWhileBusy_ne_fault xs
    | captureRef g => exact captureWhileBusy_ne_fault _
    | readResults => nofun
    | reset => nofun

/-- Settles O54, by BUSY: a command in progress reads only samples that the soundness of its phase says are there. -/
theorem noStepFaultsFromAConsistentState : Obligations.NoStepFaultsFromAConsistentState := by
  intro s f hs
  rw [step]
  split
  · exact busyStep_ne_fault hs.phase_sound
  · exact idleStep_ne_fault

end Sys2Proof.Machine
end

section
/-! PROOFS. The capture port: which samples a DECODE reads and depends on (20_memory.md R37), and what a saturating sample
port leaves of them (R39). -/

namespace Sys2Proof.Machine

variable {s : State} {c : Config} {t : Timing} {xs ys : List Micros}

/-! ### Captures that read the same -/

/-- The second capture reads as the first to a DECODE: the same length, the same header test where the length allows one,
and the same payload bits where they are read. -/
structure ReadsAs (c : Config) (xs ys : List Micros) : Prop where
  length_eq : ys.length = xs.length
  header_eq : c.minCaptureLen ≤ xs.length → hasHeader c.timing ys = hasHeader c.timing xs
  bit_eq : ∀ k < bitsRead c xs, bitAt c.timing ys (3 + 2 * k) = bitAt c.timing xs (3 + 2 * k)

namespace ReadsAs

variable (h : ReadsAs c xs ys)
include h

theorem isControlFrame_eq (hlen : c.minCaptureLen ≤ xs.length) (hh : hasHeader c.timing xs = true) :
    isControlFrame c.timing ys = isControlFrame c.timing xs := by
  rw [isControlFrame_eq_bitAt hlen, isControlFrame_eq_bitAt (h.length_eq ▸ hlen)]
  exact h.bit_eq 0 (bitsRead_pos hlen hh)

theorem dataCount_eq : dataCount c ys = dataCount c xs := by
  rw [dataCount, dataCount, h.length_eq]

theorem bitsRead_eq : bitsRead c ys = bitsRead c xs := by
  rcases Nat.lt_or_ge xs.length c.minCaptureLen with hlen | hlen
  · rw [bitsRead_of_short hlen, bitsRead_of_short (h.length_eq ▸ hlen)]
  · cases hh : hasHeader c.timing xs with
    | false => rw [bitsRead_of_no_header hh, bitsRead_of_no_header ((h.header_eq hlen).trans hh)]
    | true =>
      rw [bitsRead_of_header hlen hh, bitsRead_of_header (h.length_eq ▸ hlen) ((h.header_eq hlen).trans hh),
        h.isControlFrame_eq hlen hh, h.dataCount_eq]

theorem bitSum_eq {n : Nat} (hn : n ≤ bitsRead c xs) : bitSum c.timing ys n = bitSum c.timing xs n := by
  induction n with
  | zero => rfl
  | succ n ih => rw [bitSum_succ, bitSum_succ, ih (Nat.le_of_succ_le hn), h.bit_eq n hn]

/-- The outcome of a DECODE is a function of what it reads. -/
theorem decodeResult_eq : decodeResult c ys = decodeResult c xs := by
  rcases Nat.lt_or_ge xs.length c.minCaptureLen with hlen | hlen
  · rw [decodeResult, decodeResult, if_pos hlen, if_pos (h.length_eq ▸ hlen)]
  · have hheader := h.header_eq hlen
    cases hh : hasHeader c.timing xs with
    | false => simp [decodeResult, h.length_eq, hheader, hh]
    | true =>
      have hframe := h.isControlFrame_eq hlen hh
      have hread := bitsRead_of_header hlen hh
      cases hc : isControlFrame c.timing xs with
      | false =>
        have hsum : bitSum c.timing ys (dataCount c xs) = bitSum c.timing xs (dataCount c xs) :=
          h.bitSum_eq (by simp [hread, hc])
        simp [decodeResult, h.length_eq, hheader, hh, hframe, hc, h.dataCount_eq, hsum]
      | true =>
        have hbyte : receivedByte c ys = receivedByte c xs := h.bitSum_eq (by simp [hread, hc])
        simp [decodeResult, h.length_eq, hheader, hh, hframe, hc, receivedPrefix, receivedType, hbyte]

end ReadsAs

/-- The whole next state of a DECODE, the capture apart, is a function of what it reads. -/
theorem decodedState_of_readsAs (h : ReadsAs s.cfg s.capture ys) :
    decodedState { s with capture := ys } = { decodedState s with capture := ys } := by
  have hisctrl : (decide (bitsRead s.cfg s.capture ≠ 0) && isControlFrame s.cfg.timing ys) =
      (decide (bitsRead s.cfg s.capture ≠ 0) && isControlFrame s.cfg.timing s.capture) := by
    rcases Nat.lt_or_ge s.capture.length s.cfg.minCaptureLen with hlen | hlen
    · simp [bitsRead_of_short hlen]
    · cases hh : hasHeader s.cfg.timing s.capture with
      | false => simp [bitsRead_of_no_header hh]
      | true => rw [h.isControlFrame_eq hlen hh]
  simp only [decodedState, h.bitsRead_eq, h.bitSum_eq le_rfl, h.decodeResult_eq, hisctrl]

/-! ### The samples a DECODE reads -/

/-- The indices of 20_memory.md R37: the header's, and both of each complete pair among the bits read. -/
theorem mem_readIndices (hlen : c.minCaptureLen ≤ xs.length) {i : Nat} :
    i ∈ readIndices c xs ↔
      i = 1 ∨ i = 2 ∨ ∃ k < bitsRead c xs, 4 + 2 * k < xs.length ∧ (i = 3 + 2 * k ∨ i = 4 + 2 * k) := by
  have hfilter : ∀ k, i = 3 + 2 * k ∨ i = 4 + 2 * k →
      (3 + 2 * ((i - 3) / 2) + 1 < xs.length ↔ 4 + 2 * k < xs.length) := fun k hk => by omega
  rw [readIndices, if_neg (Nat.not_lt.mpr hlen)]
  simp only [List.mem_append, List.mem_cons, List.not_mem_nil, or_false, List.mem_filter, List.mem_flatMap,
    List.mem_range, decide_eq_true_iff, or_assoc]
  refine or_congr_right (or_congr_right ⟨?_, ?_⟩)
  · rintro ⟨⟨k, hk, hi⟩, hin⟩
    exact ⟨k, hk, (hfilter k hi).mp hin, hi⟩
  · rintro ⟨k, hk, hin, hi⟩
    exact ⟨⟨k, hk, hi⟩, (hfilter k hi).mpr hin⟩

theorem readIndices_of_short (hlen : xs.length < c.minCaptureLen) : readIndices c xs = [] := by
  rw [readIndices, if_pos hlen]

theorem readIndices_of_no_header (hlen : c.minCaptureLen ≤ xs.length) (hh : hasHeader c.timing xs = false) :
    readIndices c xs = [1, 2] := by
  simp [readIndices, Nat.not_lt.mpr hlen, bitsRead_of_no_header hh]

/-- The first payload pair is read once the header has matched. -/
theorem mem_readIndices_first (hlen : c.minCaptureLen ≤ xs.length) (hh : hasHeader c.timing xs = true) :
    3 ∈ readIndices c xs ∧ 4 ∈ readIndices c xs := by
  have hmin := c.minCaptureLen_le
  have hpos := bitsRead_pos hlen hh
  simp only [mem_readIndices hlen]
  exact ⟨.inr (.inr ⟨0, hpos, by omega, .inl rfl⟩), .inr (.inr ⟨0, hpos, by omega, .inr rfl⟩)⟩

/-- Neither sample 0 nor one past the capture is read. -/
theorem bounds_of_mem_readIndices {i : Nat} (hi : i ∈ readIndices c xs) : 1 ≤ i ∧ i < xs.length := by
  have hmin := c.minCaptureLen_le
  rcases Nat.lt_or_ge xs.length c.minCaptureLen with hlen | hlen
  · rw [readIndices_of_short hlen] at hi
    cases hi
  · obtain rfl | rfl | ⟨k, -, hin, rfl | rfl⟩ := (mem_readIndices hlen).mp hi <;> omega

/-- Captures of one length that agree on the samples read do read the same. -/
theorem readsAs_of_agree (hlength : ys.length = xs.length)
    (hagree : ∀ i ∈ readIndices c xs, ys.getD i 0 = xs.getD i 0) : ReadsAs c xs ys where
  length_eq := hlength
  header_eq hlen := by
    rw [hasHeader, hasHeader, hagree 1 ((mem_readIndices hlen).mpr (.inl rfl)),
      hagree 2 ((mem_readIndices hlen).mpr (.inr (.inl rfl)))]
  bit_eq k hk := by
    have hlen : c.minCaptureLen ≤ xs.length := by
      by_contra hshort
      rw [bitsRead_of_short (Nat.lt_of_not_le hshort)] at hk
      cases hk
    by_cases hin : 4 + 2 * k < xs.length
    · have hmark := hagree (3 + 2 * k) ((mem_readIndices hlen).mpr (.inr (.inr ⟨k, hk, hin, .inl rfl⟩)))
      have hspace := hagree (3 + 2 * k + 1) ((mem_readIndices hlen).mpr (.inr (.inr ⟨k, hk, hin, .inr (by omega)⟩)))
      rw [bitAt, bitAt, hlength, hmark, hspace]
    · have hout : ¬ 3 + 2 * k + 1 < xs.length := by omega
      simp [bitAt, hlength, hout]

/-- Settles O46, by what each read index is and by the closed form of the DECODE. -/
theorem decodeDependsOnlyOnTheSamplesItReads : Obligations.DecodeDependsOnlyOnTheSamplesItReads := by
  refine ⟨fun c xs i hi => bounds_of_mem_readIndices hi, fun c xs hlen => readIndices_of_short hlen,
    fun c xs hlen => ⟨(mem_readIndices hlen).mpr (.inl rfl), (mem_readIndices hlen).mpr (.inr (.inl rfl)),
      readIndices_of_no_header hlen, mem_readIndices_first hlen⟩, ?_⟩
  intro s s' hb hb' hcfg hlength hagree
  refine ⟨_, _, execDecode_eq hb, execDecode_eq hb', ?_⟩
  show resultRegs s'.cfg (decodeResult s'.cfg s'.capture) = resultRegs s.cfg (decodeResult s.cfg s.capture)
  rw [hcfg, (readsAs_of_agree hlength hagree).decodeResult_eq]

/-! ### A saturating sample port -/

/-- A port that saturates above the window of `e` changes no comparison with `e`. -/
theorem withinTolerance_saturate {e top : Micros} (hden : t.tolDen ≠ 0) (htop : e + windowReach t e < top) (a : Micros) :
    withinTolerance t (min a top) e = withinTolerance t a e := by
  rw [Bool.eq_iff_iff, withinTolerance_iff hden, withinTolerance_iff hden]
  unfold Micros at *
  omega

/-- Above every window of the header and of Logical 1, the pairs a DECODE tests. -/
structure AboveWindows (t : Timing) (top : Micros) : Prop where
  hdrMark : t.hdrMark + windowReach t t.hdrMark < top
  hdrSpace : t.hdrSpace + windowReach t t.hdrSpace < top
  oneMark : t.oneMark + windowReach t t.oneMark < top
  oneSpace : t.oneSpace + windowReach t t.oneSpace < top

/-- The highest window of the normative `Timing` ends at 11250 (40_timing_codec.md R78). -/
theorem aboveWindows_normative {top : Micros} (htop : 11250 < top) : AboveWindows Timing.normative top := by
  have hreach : ∀ e, windowReach Timing.normative e = e / 4 := fun e => by simp [windowReach, Timing.normative]
  constructor <;> rw [hreach] <;> simp only [Timing.normative] <;> unfold Micros at * <;> omega

theorem isHeader_saturate {top : Micros} (hden : t.tolDen ≠ 0) (h : AboveWindows t top) (m sp : Micros) :
    isHeader t (min m top) (min sp top) = isHeader t m sp := by
  rw [isHeader, withinTolerance_saturate hden h.hdrMark, withinTolerance_saturate hden h.hdrSpace, isHeader]

theorem isOne_saturate {top : Micros} (hden : t.tolDen ≠ 0) (h : AboveWindows t top) (m sp : Micros) :
    isOne t (min m top) (min sp top) = isOne t m sp := by
  rw [isOne, withinTolerance_saturate hden h.oneMark, withinTolerance_saturate hden h.oneSpace, isOne]

/-- A saturated sample, or 0 past the end of the capture. -/
theorem getD_saturate (xs : List Micros) (top : Micros) (i : Nat) :
    (xs.map (min · top)).getD i 0 = min (xs.getD i 0) top := by
  simpa using List.getD_map xs 0 (n := i) (min · top)

theorem readsAs_saturate {top : Micros} (hden : c.timing.tolDen ≠ 0) (h : AboveWindows c.timing top) (xs : List Micros) :
    ReadsAs c xs (xs.map (min · top)) where
  length_eq := List.length_map _
  header_eq _ := by
    rw [hasHeader, getD_saturate, getD_saturate, isHeader_saturate hden h, hasHeader]
  bit_eq k _ := by
    rw [bitAt, List.length_map, getD_saturate, getD_saturate, isOne_saturate hden h, bitAt]

/-- Settles O9: the sample port's largest value is above every window, so a DECODE reads a saturated capture as it reads the
true durations. -/
theorem saturatedCaptureDecodesTheSame : Obligations.SaturatedCaptureDecodesTheSame := by
  intro s hb htiming
  obtain ⟨-, -, -, -, hwide, -⟩ := s.cfg.valid
  have hreads : ReadsAs s.cfg s.capture (s.capture.map (min · (2 ^ s.cfg.sampleW - 1))) :=
    readsAs_saturate (by rw [htiming]; decide) (htiming ▸ aboveWindows_normative hwide) s.capture
  refine ⟨_, execDecode_eq hb, ?_⟩
  rw [← decodedState_of_readsAs hreads]
  exact execDecode_eq hb

end Sys2Proof.Machine
end

section
/-! PROOFS. The reference capture (20_memory.md R36, R40): where each sample of a frame stands in it, and that `CAPTURE g`
presents that of the last SEND (30_encoding.md R70). -/

namespace Sys2Proof.Machine

variable {s : State}

/-! ### The layout of a frame -/

/-- Lists of two laid end to end: the elements of the `k`-th pair stand at `2k` and `2k + 1`. -/
theorem getElem?_flatMap_pair {α β : Type} (f g : α → β) (xs : List α) (k : Nat) :
    (xs.flatMap fun x => [f x, g x])[2 * k]? = xs[k]?.map f ∧
      (xs.flatMap fun x => [f x, g x])[2 * k + 1]? = xs[k]?.map g := by
  induction xs generalizing k with
  | nil => simp
  | cons x xs ih =>
    cases k with
    | zero => simp
    | succ k => simpa [Nat.mul_succ] using ih k

theorem length_flatMap_pair {α β : Type} (f g : α → β) (xs : List α) :
    (xs.flatMap fun x => [f x, g x]).length = 2 * xs.length := by
  simp [List.length_flatMap, Nat.mul_comm]

/-- The durations of the payload's pulses, first bit first. -/
def payloadDurations (t : Timing) (payload : List Bool) : List Micros :=
  payload.flatMap fun b => [markOf t b, spaceOf t b]

/-- With an end space of 0 the final idle is dropped, and the end mark is the last sample (20_memory.md R40). -/
theorem captureOf_framePulses {t : Timing} (hend : t.endSpace = 0) (payload : List Bool) (g : Micros) :
    captureOf (framePulses t payload) g =
      [g, t.hdrMark, t.hdrSpace] ++ (payloadDurations t payload ++ [t.endMark]) := by
  have hdrop : dropFinalIdle (framePulses t payload) =
      headerPulses t ++ payload.flatMap (bitPulses t) ++ [.mark t.endMark] := by
    have hframe : framePulses t payload =
        (headerPulses t ++ payload.flatMap (bitPulses t) ++ [.mark t.endMark]) ++ [.space 0] := by
      simp [framePulses, endPulses, hend]
    rw [hframe, dropFinalIdle, if_pos List.getLast?_concat, List.dropLast_concat]
  simp [captureOf, hdrop, headerPulses, payloadDurations, List.map_flatMap, bitPulses, Pulse.duration]

/-- Past the gap and the header stand the payload's durations and the end mark. -/
theorem getElem?_captureOf_framePulses {t : Timing} (hend : t.endSpace = 0) (payload : List Bool) (g : Micros) (i : Nat) :
    (captureOf (framePulses t payload) g)[3 + i]? = (payloadDurations t payload ++ [t.endMark])[i]? := by
  rw [captureOf_framePulses hend, List.getElem?_append_right (by simp)]
  simp

theorem length_payloadDurations (t : Timing) (payload : List Bool) :
    (payloadDurations t payload).length = 2 * payload.length :=
  length_flatMap_pair _ _ payload

theorem getElem?_payloadDurations {t : Timing} {payload : List Bool} {k : Nat} {b : Bool} (hk : payload[k]? = some b) :
    (payloadDurations t payload)[2 * k]? = some (markOf t b) ∧
      (payloadDurations t payload)[2 * k + 1]? = some (spaceOf t b) := by
  have hpair := getElem?_flatMap_pair (markOf t) (spaceOf t) payload k
  rwa [hk] at hpair

/-- Settles O17, by the pairs of the payload between the header and the end mark. -/
theorem referenceCaptureLayout : Obligations.ReferenceCaptureLayout := by
  intro t payload g hend
  have hlength := length_payloadDurations t payload
  refine ⟨?_, ?_, ?_, ?_, fun k b hk => ?_, ?_⟩
  · simp [captureOf_framePulses hend, hlength]
  · rw [captureOf_framePulses hend]; rfl
  · rw [captureOf_framePulses hend]; rfl
  · rw [captureOf_framePulses hend]; rfl
  · obtain ⟨hlt, -⟩ := List.getElem?_eq_some_iff.mp hk
    obtain ⟨hmark, hspace⟩ := getElem?_payloadDurations (t := t) hk
    rw [show 4 + 2 * k = 3 + (2 * k + 1) by omega, getElem?_captureOf_framePulses hend,
      getElem?_captureOf_framePulses hend, List.getElem?_append_left (by omega), List.getElem?_append_left (by omega)]
    exact ⟨hmark, hspace⟩
  · rw [Nat.add_comm, getElem?_captureOf_framePulses hend, ← hlength, List.getElem?_concat_length]

/-! ### The capture of the last SEND -/

/-- Every command but DECODE is a SEND of some pulses. -/
theorem exec_ofCommand_send {c : Command} (hc : c ≠ .decode) (s : State) :
    ∃ ps, exec (Instr.ofCommand c) s = sendCommand ps s := by
  cases c with
  | sendControl code => exact ⟨_, exec_ofSendControl code s⟩
  | sendData v n => exact ⟨_, rfl⟩
  | decode => exact absurd rfl hc

/-- `CAPTURE g` at BUSY = 0 presents the reference capture of `lastSend`. -/
theorem step_captureRef {g : Micros} {rest : List Input} (hb : s.busy = false) (hin : s.inputs = .captureRef g :: rest)
    (hfits : (captureOf s.lastSend g).length ≤ s.cfg.captureMax) :
    step s = .next { s with inputs := rest, capture := captureOf s.lastSend g } := by
  rw [step, if_neg (by simp [hb]), idleStep, hin]
  exact if_pos hfits

/-- Settles O20: a SEND keeps in `lastSend` the pulses it appends to TRACE. -/
theorem referenceCaptureIsOfTheLastSend : Obligations.ReferenceCaptureIsOfTheLastSend := by
  intro s t c g rest hb hc hexec hfits
  obtain ⟨ps, hsend⟩ := exec_ofCommand_send hc s
  obtain ⟨-, rfl⟩ := sendCommand_eq_next (hsend ▸ hexec)
  simp only [List.drop_left] at hfits ⊢
  exact step_captureRef hb rfl hfits

end Sys2Proof.Machine
end

section
/-! PROOFS. The encodings of 30_encoding.md: the fields of a command word, the control byte and the wire symbol, and that
the decoder reads back what the encoder writes (R54, R60, R65 to R71). -/

namespace Sys2Proof

open Machine

/-! ### The fields of a command word -/

section Fields

variable (value : DataValue) (count : BitVec 8) (ctype : BitVec 3) (op : BitVec 2)

@[simp] theorem op_commandWord : (commandWord value count ctype op).op = op :=
  BitVec.extractLsb'_append_eq_right

@[simp] theorem ctype_commandWord : (commandWord value count ctype op).ctype = ctype :=
  (BitVec.extractLsb'_append_eq_of_le (by decide)).trans BitVec.extractLsb'_append_eq_right

@[simp] theorem count_commandWord : (commandWord value count ctype op).count = count :=
  calc (commandWord value count ctype op).count
    _ = (value ++ count ++ 0#3 ++ ctype).extractLsb' 6 8 := BitVec.extractLsb'_append_eq_of_le (by decide)
    _ = (value ++ count ++ 0#3).extractLsb' 3 8 := BitVec.extractLsb'_append_eq_of_le (by decide)
    _ = (value ++ count).extractLsb' 0 8 := BitVec.extractLsb'_append_eq_of_le (by decide)
    _ = count := BitVec.extractLsb'_append_eq_right

@[simp] theorem value_commandWord : (commandWord value count ctype op).value = value :=
  calc (commandWord value count ctype op).value
    _ = (value ++ count ++ 0#3 ++ ctype).extractLsb' 14 64 := BitVec.extractLsb'_append_eq_of_le (by decide)
    _ = (value ++ count ++ 0#3).extractLsb' 11 64 := BitVec.extractLsb'_append_eq_of_le (by decide)
    _ = (value ++ count).extractLsb' 8 64 := BitVec.extractLsb'_append_eq_of_le (by decide)
    _ = value := BitVec.extractLsb'_append_eq_left

end Fields

/-- A word with 0 in bits 7..5 is made of its fields (30_encoding.md R65). -/
theorem commandWord_fields {w : CommandWord} (h : w.extractLsb' 5 3 = 0) :
    commandWord w.value w.count w.ctype w.op = w := by
  have hzero : (0#3 : BitVec 3) = w.extractLsb' 5 3 := h.symm
  rw [commandWord, hzero, CommandWord.value, CommandWord.count, CommandWord.ctype, CommandWord.op,
    BitVec.extractLsb'_append_extractLsb'_eq_extractLsb' (by rfl),
    BitVec.extractLsb'_append_extractLsb'_eq_extractLsb' (by rfl),
    BitVec.extractLsb'_append_extractLsb'_eq_extractLsb' (by rfl),
    BitVec.extractLsb'_append_extractLsb'_eq_extractLsb' (by rfl)]
  exact BitVec.extractLsb'_eq_self

/-- The bits within a field of zeros are 0. -/
theorem extractLsb'_eq_zero_of_within {n start len start' len' : Nat} {w : BitVec n} (h : w.extractLsb' start len = 0)
    (hlo : start ≤ start') (hhi : start' + len' ≤ start + len) : w.extractLsb' start' len' = 0 := by
  apply BitVec.eq_of_getLsbD_eq
  intro i hi
  have hbit := congrArg (fun v => v.getLsbD (start' - start + i)) h
  simp only [BitVec.getLsbD_extractLsb', ← Nat.add_assoc, Nat.add_sub_cancel' hlo,
    show start' - start + i < len by omega, decide_true, Bool.true_and] at hbit
  simp [hbit]

/-! ### The opcode map -/

section OpcodeMap

variable {w : CommandWord}

theorem decodeCommand_reservedOp (hop : w.op = 0b00#2) : decodeCommand w = .error .reservedOp := by
  rw [decodeCommand, hop]
  rfl

theorem decodeCommand_sendControl (hop : w.op = 0b01#2) {code : ControlCode} (hty : w.ctype = code.type) :
    decodeCommand w = .ok (.sendControl code) := by
  have hcode : ControlCode.ofType w.ctype = some code := (ofType_eq_some _ _).mpr (congrArg BitVec.toNat hty)
  rw [decodeCommand, hop]
  simp only [hcode]

theorem decodeCommand_reservedCtype (hop : w.op = 0b01#2) (hty : w.ctype ∈ [0#3, 5#3, 6#3, 7#3]) :
    decodeCommand w = .error (.reservedCtype w.ctype) := by
  have hcode : ControlCode.ofType w.ctype = none := by
    refine (ofType_eq_none _).mpr ?_
    revert hty
    generalize w.ctype = ty
    revert ty
    decide
  rw [decodeCommand, hop]
  simp only [hcode]

theorem decodeCommand_sendData (hop : w.op = 0b10#2) : decodeCommand w = .ok (.sendData w.value w.count) := by
  rw [decodeCommand, hop]
  rfl

theorem decodeCommand_decode (hop : w.op = 0b11#2) : decodeCommand w = .ok .decode := by
  rw [decodeCommand, hop]
  rfl

theorem decode_of_ok {cmd : Command} (h : decodeCommand w = .ok cmd) : decode w = .ok (Instr.ofCommand cmd) := by
  rw [decode, h]

theorem decode_of_error {e : DecodeError} (h : decodeCommand w = .error e) : decode w = .error e := by
  rw [decode, h]

/-- An instruction that a word selects is that of the command the word decodes to. -/
theorem decode_eq_ok {i : Instr} (h : decode w = .ok i) :
    ∃ cmd, decodeCommand w = .ok cmd ∧ i = Instr.ofCommand cmd := by
  cases hw : decodeCommand w with
  | ok cmd =>
    rw [decode_of_ok hw] at h
    cases h
    exact ⟨cmd, rfl, rfl⟩
  | error e =>
    rw [decode_of_error hw] at h
    cases h

end OpcodeMap

theorem decodeCommand_encodeCommand (cmd : Command) : decodeCommand (encodeCommand cmd) = .ok cmd := by
  cases cmd with
  | sendControl code => exact decodeCommand_sendControl (op_commandWord ..) (ctype_commandWord ..)
  | sendData v n =>
    have h := decodeCommand_sendData (op_commandWord v n 0 0b10#2)
    rw [value_commandWord, count_commandWord] at h
    exact h
  | decode => exact decodeCommand_decode (op_commandWord ..)

/-- The fields a well-formed word has 0 in: bits 7..5, and all that its command does not use. -/
theorem unusedFields_of_wellFormed {w : CommandWord} (h : CommandWord.wellFormed w = true) :
    w.extractLsb' 5 3 = 0 ∧ (w.op = 0b01#2 → w.extractLsb' 8 72 = 0) ∧ (w.op = 0b10#2 → w.ctype = 0) ∧
      (w.op = 0b11#2 → w.extractLsb' 2 78 = 0) := by
  rw [CommandWord.wellFormed, Bool.and_eq_true, beq_iff_eq] at h
  obtain ⟨hreserved, hunused⟩ := h
  refine ⟨hreserved, fun hop => ?_, fun hop => ?_, fun hop => ?_⟩ <;>
    (rw [CommandWord.op] at hop; rw [hop] at hunused; exact eq_of_beq hunused)

/-- A well-formed word that names a command is that command's word: the fields the command uses are its operands, and the
others are 0. -/
theorem encodeCommand_eq_of_wellFormed {w : CommandWord} {cmd : Command} (hwf : CommandWord.wellFormed w = true)
    (h : decodeCommand w = .ok cmd) : encodeCommand cmd = w := by
  obtain ⟨hreserved, hcontrol, hdata, hdecode⟩ := unusedFields_of_wellFormed hwf
  rw [← commandWord_fields hreserved]
  rw [decodeCommand] at h
  split at h
  case h_1 hop =>
    split at h
    case h_1 code hcode =>
      cases h
      have hty : w.ctype = code.type := BitVec.eq_of_toNat_eq ((ofType_eq_some _ _).mp hcode)
      have hvalue : w.value = 0 := extractLsb'_eq_zero_of_within (hcontrol hop) (by decide) (by decide)
      have hcount : w.count = 0 := extractLsb'_eq_zero_of_within (hcontrol hop) (by decide) (by decide)
      rw [encodeCommand, hop, hty, hvalue, hcount]
      rfl
    case h_2 => cases h
  case h_2 hop =>
    cases h
    rw [encodeCommand, hop, hdata hop]
    rfl
  case h_3 hop =>
    cases h
    have hvalue : w.value = 0 := extractLsb'_eq_zero_of_within (hdecode hop) (by decide) (by decide)
    have hcount : w.count = 0 := extractLsb'_eq_zero_of_within (hdecode hop) (by decide) (by decide)
    have hctype : w.ctype = 0 := extractLsb'_eq_zero_of_within (hdecode hop) (by decide) (by decide)
    rw [encodeCommand, hop, hvalue, hcount, hctype]
    rfl
  case h_4 => cases h

/-! ### The control byte -/

/-- A code's type value fits the type field, which has at least 3 bits. -/
theorem type_lt (c : Config) (code : ControlCode) : code.type.toNat < 2 ^ c.ctrlTypeBits :=
  code.type.isLt.trans_le (Nat.pow_le_pow_right (by decide) c.ctrlTypeBits_le)

/-- A control byte fits the control payload (30_encoding.md R60). -/
theorem ctrlByte_lt (c : Config) (code : ControlCode) : (ctrlByte c.toParams code).toNat < 2 ^ c.ctrlBits := by
  have htype := type_lt c code
  rw [ctrlByte_toNat, ← c.ctrlBits_split, Nat.pow_add]
  calc c.ctrlPrefix.toNat * 2 ^ c.ctrlTypeBits + code.type.toNat
    _ < (c.ctrlPrefix.toNat + 1) * 2 ^ c.ctrlTypeBits := by rw [Nat.succ_mul]; omega
    _ ≤ 2 ^ c.ctrlPrefixBits * 2 ^ c.ctrlTypeBits := Nat.mul_le_mul_right _ c.ctrlPrefix_lt

theorem decodeCtrlByte_ctrlByte (c : Config) (code : ControlCode) :
    decodeCtrlByte c.toParams (ctrlByte c.toParams code) = .ok code := by
  have htype := type_lt c code
  have hprefix : (ctrlByte c.toParams code).toNat % 2 ^ c.ctrlBits / 2 ^ c.ctrlTypeBits = c.ctrlPrefix.toNat := by
    rw [Nat.mod_eq_of_lt (ctrlByte_lt c code), ctrlByte_toNat, Nat.mul_comm, Nat.mul_add_div (Nat.two_pow_pos _),
      Nat.div_eq_of_lt htype, Nat.add_zero]
  have hcode : ControlCode.ofType (typeField c.toParams (ctrlByte c.toParams code)) = some code := by
    rw [ofType_eq_some, typeField_toNat, ctrlByte_toNat, Nat.mul_comm, Nat.mul_add_mod, Nat.mod_eq_of_lt htype]
  rw [decodeCtrlByte_eq, if_neg (not_not.mpr hprefix), hcode]

/-! ### The instructions that have an encoding -/

theorem encode_ofCommand (c : Config) (cmd : Command) :
    encode c (Instr.ofCommand cmd) = some (.command (encodeCommand cmd)) := by
  cases cmd with
  | sendControl code => cases code <;> rfl
  | sendData v n => rfl
  | decode => rfl

theorem encode_ofControlCode (c : Config) (code : ControlCode) :
    encode c (Instr.ofControlCode code) = some (.byte (ctrlByte c.toParams code)) := by
  cases code <;> rfl

/-- The three encodings, each with the rows that have it (30_encoding.md R54, R60, R65). -/
inductive EncodedRow (c : Config) : Instr → Encoded → Prop where
  | command (cmd : Command) : EncodedRow c (Instr.ofCommand cmd) (.command (encodeCommand cmd))
  | byte (code : ControlCode) : EncodedRow c (Instr.ofControlCode code) (.byte (ctrlByte c.toParams code))
  | header : EncodedRow c .wireHeader (.symbol c.timing.hdrMark c.timing.hdrSpace)
  | bit1 : EncodedRow c .wireBit1 (.symbol c.timing.oneMark c.timing.oneSpace)
  | bit0 : EncodedRow c .wireBit0 (.symbol c.timing.zeroMark c.timing.zeroSpace)
  | endMarker : EncodedRow c .wireEnd (.symbol c.timing.endMark c.timing.endSpace)

theorem encodedRow_of_encode {c : Config} {i : Instr} {e : Encoded} (h : encode c i = some e) : EncodedRow c i e := by
  cases i with
  | sendcStart => cases h; exact .command (.sendControl .start)
  | sendcEnd => cases h; exact .command (.sendControl .endCode)
  | sendcAck => cases h; exact .command (.sendControl .ack)
  | sendcNack => cases h; exact .command (.sendControl .nack)
  | sendd v n => cases h; exact .command (.sendData v n)
  | decode => cases h; exact .command .decode
  | matchOp _ _ => cases h
  | sendBit _ => cases h
  | sendHdr => cases h
  | sendEnd => cases h
  | getBit _ => cases h
  | wireHeader => cases h; exact .header
  | wireBit1 => cases h; exact .bit1
  | wireBit0 => cases h; exact .bit0
  | wireEnd => cases h; exact .endMarker
  | ctrlStart => cases h; exact .byte .start
  | ctrlEnd => cases h; exact .byte .endCode
  | ctrlAck => cases h; exact .byte .ack
  | ctrlNack => cases h; exact .byte .nack

theorem decodeEncoded_encodeCommand (c : Config) (cmd : Command) :
    decodeEncoded c (.command (encodeCommand cmd)) = .ok (Instr.ofCommand cmd) :=
  decode_of_ok (decodeCommand_encodeCommand cmd)

theorem decodeEncoded_ctrlByte (c : Config) (code : ControlCode) :
    decodeEncoded c (.byte (ctrlByte c.toParams code)) = .ok (Instr.ofControlCode code) := by
  rw [decodeEncoded, decodeCtrlByte_ctrlByte]

/-- Settles O28, by the three encodings; the four nominal pairs lie in their own windows only. -/
theorem decodeOfEncodeIsTheInstruction : Obligations.DecodeOfEncodeIsTheInstruction := by
  intro c i e htiming h
  cases encodedRow_of_encode h with
  | command cmd => exact decodeEncoded_encodeCommand c cmd
  | byte code => exact decodeEncoded_ctrlByte c code
  | header => rw [decodeEncoded, htiming]; decide
  | bit1 => rw [decodeEncoded, htiming]; decide
  | bit0 => rw [decodeEncoded, htiming]; decide
  | endMarker => rw [decodeEncoded, htiming]; decide

/-- Settles O29: a word with 0 in bits 7..5 is made of its fields, and the fields its command does not use are 0. -/
theorem wellFormedWordIsTheEncodingOfItsCommand : Obligations.WellFormedWordIsTheEncodingOfItsCommand := by
  intro c w i hwf h
  obtain ⟨cmd, hcmd, rfl⟩ := decode_eq_ok h
  rw [encode_ofCommand, encodeCommand_eq_of_wellFormed hwf hcmd]

/-- Settles O23, by the cases of OP and of CTYPE. -/
theorem opcodeMapIsTotal : Obligations.OpcodeMapIsTotal := by
  intro w
  refine ⟨fun hop => decode_of_error (decodeCommand_reservedOp hop), fun hop => ⟨?_, ?_, ?_, ?_, fun hty => ?_⟩,
    fun hop => decode_of_ok (decodeCommand_sendData hop), fun hop => decode_of_ok (decodeCommand_decode hop)⟩
  · exact fun hty => decode_of_ok (decodeCommand_sendControl hop (code := .start) hty)
  · exact fun hty => decode_of_ok (decodeCommand_sendControl hop (code := .endCode) hty)
  · exact fun hty => decode_of_ok (decodeCommand_sendControl hop (code := .ack) hty)
  · exact fun hty => decode_of_ok (decodeCommand_sendControl hop (code := .nack) hty)
  · exact decode_of_error (decodeCommand_reservedCtype hop hty)

/-- A command word as a number: each field shifted to its place (30_encoding.md R65). -/
theorem commandWord_toNat (value : DataValue) (count : BitVec 8) (ctype : BitVec 3) (op : BitVec 2) :
    (commandWord value count ctype op).toNat =
      (value.toNat <<< 16) ||| (count.toNat <<< 8) ||| (ctype.toNat <<< 2) ||| op.toNat := by
  rw [commandWord, BitVec.toNat_append, BitVec.toNat_append, BitVec.toNat_append, BitVec.toNat_append]
  simp [Nat.shiftLeft_or_distrib, ← Nat.shiftLeft_add]

/-- Settles O25: the fixed words are evaluated, and SENDD's is its fields shifted to their places. -/
theorem commandWordsInHexadecimal : Obligations.CommandWordsInHexadecimal :=
  ⟨rfl, rfl, rfl, rfl, fun v n => by simp [encodeCommand, commandWord_toNat], rfl⟩

end Sys2Proof
end

section
/-! PROOFS. The encodings as instructions: a presented word or byte runs what it names (30_encoding.md R67, log 5, log 9,
log 10), a wire symbol goes out (R54, log 8), and a received control byte is recorded or fails (R61, R63, log 9). -/

namespace Sys2Proof.Machine

variable {s : State}

/-! ### The wire symbols -/

theorem emitAll_symbolPulses (mark space : Micros) (s : State) :
    emitAll (symbolPulses mark space) s =
      { s with trace := s.trace ++ [.mark mark, .space space], levelOpen := none } :=
  emitAll_eq _ s

/-- Settles O13: each symbol is emitted as its mark and its space. -/
theorem wireSymbolsGoOut : Obligations.WireSymbolsGoOut := fun s =>
  ⟨congrArg _ (emitAll_symbolPulses _ _ s), congrArg _ (emitAll_symbolPulses _ _ s),
    congrArg _ (emitAll_symbolPulses _ _ s), congrArg _ (emitAll_symbolPulses _ _ s)⟩

/-! ### What is presented at BUSY = 0 -/

section Presented

variable {w : CommandWord} {b : ControlByte} {rest : List Input}

theorem step_command (hb : s.busy = false) (hin : s.inputs = .command w :: rest) :
    step s = runWord w { s with inputs := rest } := by
  rw [step, if_neg (by simp [hb]), idleStep, hin]

theorem step_present (hb : s.busy = false) (hin : s.inputs = .present w :: rest) :
    step s = presentWord w { s with inputs := rest } := by
  rw [step, if_neg (by simp [hb]), idleStep, hin]

theorem step_ctrlByte (hb : s.busy = false) (hin : s.inputs = .ctrlByte b :: rest) :
    step s = runCtrlByte b { s with inputs := rest } := by
  rw [step, if_neg (by simp [hb]), idleStep, hin]

theorem runWord_of_decode {i : Instr} (h : decode w = .ok i) : runWord w s = exec i s := by
  rw [runWord, h]

theorem runCtrlByte_of_decodeCtrlByte {code : ControlCode} (h : decodeCtrlByte s.cfg.toParams b = .ok code) :
    runCtrlByte b s = exec (Instr.ofControlCode code) s := by
  rw [runCtrlByte, h]

/-- A word that names no command is refused, whichever way it is presented. -/
theorem step_refused {e : DecodeError} (hb : s.busy = false)
    (hin : s.inputs = .command w :: rest ∨ s.inputs = .present w :: rest) (h : decodeCommand w = .error e) :
    step s = .refused (refusalOf e) := by
  obtain hin | hin := hin
  · rw [step_command hb hin, runWord, decode_of_error h]
  · rw [step_present hb hin, presentWord, h]

/-- Settles O24: both classes of reserved words decode to an error. -/
theorem wordsThatNameNoCommandAreRefused : Obligations.WordsThatNameNoCommandAreRefused := fun _ _ _ hb hin =>
  ⟨fun hop => step_refused hb hin (decodeCommand_reservedOp hop),
    fun hop hty => step_refused hb hin (decodeCommand_reservedCtype hop hty)⟩

end Presented

/-! ### The control bytes under R7's constants -/

theorem normative_countsOfR7 : Config.normative.CountsOfR7 := ⟨rfl, rfl, rfl, rfl, rfl, rfl⟩

/-- Two configurations with R7's constants and the same `CTRL_PREFIX` read control bytes alike. -/
theorem decodeCtrlByte_congr {c c' : Config} (hc : c.CountsOfR7) (hc' : c'.CountsOfR7)
    (hprefix : c.ctrlPrefix = c'.ctrlPrefix) (b : ControlByte) :
    decodeCtrlByte c.toParams b = decodeCtrlByte c'.toParams b := by
  obtain ⟨-, -, hbits, -, htype, -⟩ := hc
  obtain ⟨-, -, hbits', -, htype', -⟩ := hc'
  have hfield : typeField c.toParams b = typeField c'.toParams b :=
    BitVec.eq_of_toNat_eq (by rw [typeField_toNat, typeField_toNat, htype, htype'])
  rw [decodeCtrlByte_eq, decodeCtrlByte_eq, hfield, hprefix, hbits, hbits', htype, htype']

theorem ctrlByte_of_countsOfR7 {c : Config} (hc : c.CountsOfR7) (code : ControlCode) :
    ctrlByte c.toParams code = c.ctrlPrefix ++ code.type := by
  obtain ⟨-, -, -, -, htype, -⟩ := hc
  apply BitVec.eq_of_toNat_eq
  rw [ctrlByte_toNat, htype, BitVec.toNat_append, ← Nat.shiftLeft_add_eq_or_of_lt code.type.isLt, Nat.shiftLeft_eq]

/-- Settles O30: the byte is `CTRL_PREFIX` above the type, and the bits transmitted are evaluated. -/
theorem controlBytesOfTheNormativePrefix : Obligations.ControlBytesOfTheNormativePrefix := by
  refine ⟨fun c code hc => ctrlByte_of_countsOfR7 hc code, fun c hc hprefix => ?_⟩
  have hbyte : ∀ code, ctrlByte c.toParams code = 0b10100#5 ++ code.type := fun code =>
    (ctrlByte_of_countsOfR7 hc code).trans (by rw [hprefix]; rfl)
  simp only [encode, hbyte]
  decide

section NormativePrefix

variable {c : Config} {b : ControlByte}

/-- The four bytes that name a code (30_encoding.md R61). -/
theorem eq_ctrlByte_of_mem (hc : c.CountsOfR7) (hprefix : c.ctrlPrefix = 0b10100)
    (hmem : b ∈ [0xA1#8, 0xA2#8, 0xA3#8, 0xA4#8]) :
    ∃ code, b = ctrlByte c.toParams code ∧ b.extractLsb' 0 3 = code.type := by
  simp only [ctrlByte_of_countsOfR7 hc, hprefix]
  simp only [List.mem_cons, List.not_mem_nil, or_false] at hmem
  obtain rfl | rfl | rfl | rfl := hmem
  · exact ⟨.start, by decide⟩
  · exact ⟨.endCode, by decide⟩
  · exact ⟨.ack, by decide⟩
  · exact ⟨.nack, by decide⟩

theorem decodeCtrlByte_badType (hc : c.CountsOfR7) (hprefix : c.ctrlPrefix = 0b10100)
    (hmem : b ∈ [0xA0#8, 0xA5#8, 0xA6#8, 0xA7#8]) : decodeCtrlByte c.toParams b = .error .badType := by
  rw [decodeCtrlByte_congr hc normative_countsOfR7 hprefix]
  simp only [List.mem_cons, List.not_mem_nil, or_false] at hmem
  obtain rfl | rfl | rfl | rfl := hmem <;> rfl

theorem decodeCtrlByte_badPrefix (hc : c.CountsOfR7) (hprefix : c.ctrlPrefix = 0b10100)
    (hb : b.extractLsb' 3 5 ≠ 0b10100) : decodeCtrlByte c.toParams b = .error .badPrefix := by
  obtain ⟨-, -, hbits, -, htype, -⟩ := hc
  rw [decodeCtrlByte_eq, hprefix, hbits, htype]
  refine if_pos fun heq => hb (BitVec.eq_of_toNat_eq ?_)
  rw [BitVec.extractLsb'_toNat, Nat.shiftRight_eq_div_pow, ← heq]
  omega

end NormativePrefix

/-! ### What is presented, decoded -/

/-- A table row is read as a command word or as a control byte (log 10). -/
theorem tableEncoding_cases (nbits w : Nat) :
    (∃ cw, tableEncoding nbits w = .command cw) ∨ ∃ b, tableEncoding nbits w = .byte b := by
  rw [tableEncoding]
  split
  · split
    · exact .inr ⟨_, rfl⟩
    · exact .inl ⟨_, rfl⟩
  · exact .inl ⟨_, rfl⟩

theorem decodeEncoded_of_decodeTableWord {nbits w : Nat} {i : Instr} (h : decodeTableWord nbits w = some i) :
    decodeEncoded Config.normative (tableEncoding nbits w) = .ok i := by
  rw [decodeTableWord] at h
  split at h
  · rename_i j hj
    cases h
    exact hj
  · cases h

theorem decodeEncoded_byte_eq_ok {c : Config} {b : ControlByte} {i : Instr} (h : decodeEncoded c (.byte b) = .ok i) :
    ∃ code, decodeCtrlByte c.toParams b = .ok code ∧ i = Instr.ofControlCode code := by
  rw [decodeEncoded] at h
  split at h
  · rename_i code hcode
    cases h
    exact ⟨code, hcode, rfl⟩
  · cases h

theorem step_command_of_decode {w : CommandWord} {i : Instr} {rest : List Input} (hb : s.busy = false)
    (hin : s.inputs = .command w :: rest) (h : decode w = .ok i) : step s = exec i { s with inputs := rest } :=
  (step_command hb hin).trans (runWord_of_decode h)

theorem step_ctrlByte_of_decode {b : ControlByte} {code : ControlCode} {rest : List Input} (hb : s.busy = false)
    (hin : s.inputs = .ctrlByte b :: rest) (h : decodeCtrlByte s.cfg.toParams b = .ok code) :
    step s = exec (Instr.ofControlCode code) { s with inputs := rest } :=
  (step_ctrlByte hb hin).trans (runCtrlByte_of_decodeCtrlByte h)

/-- What a table row's bits decode to runs next when they are presented. -/
theorem step_withFetchWord {nbits w : Nat} {i : Instr} (hb : s.busy = false) (hc : s.cfg.CountsOfR7)
    (hprefix : s.cfg.ctrlPrefix = 0b10100) (h : decodeTableWord nbits w = some i) :
    step (s.withFetchWord nbits w) = exec i s := by
  have hdec := decodeEncoded_of_decodeTableWord h
  have hin : (s.withFetchWord nbits w).inputs = tableInput nbits w :: s.inputs := rfl
  rw [tableInput] at hin
  obtain ⟨cw, henc⟩ | ⟨b, henc⟩ := tableEncoding_cases nbits w
  · rw [henc] at hdec hin
    exact step_command_of_decode hb hin hdec
  · rw [henc] at hdec hin
    obtain ⟨code, hcode, rfl⟩ := decodeEncoded_byte_eq_ok hdec
    exact step_ctrlByte_of_decode hb hin ((decodeCtrlByte_congr hc normative_countsOfR7 hprefix b).trans hcode)

/-- Settles O27, by the three ways an instruction is presented. -/
theorem stepRunsThePresentedInstruction : Obligations.StepRunsThePresentedInstruction :=
  ⟨fun _ _ _ _ => step_command_of_decode, fun _ _ _ _ => step_ctrlByte_of_decode, fun _ _ _ _ => step_withFetchWord⟩

/-! ### A received control byte -/

section Received

variable {b : ControlByte}

theorem ctrlPayload_of_fits {c : Config} (hfits : b.toNat < 2 ^ c.ctrlBits) : ctrlPayload c.toParams b = b :=
  BitVec.eq_of_toNat_eq (by rw [ctrlPayload_toNat, Nat.mod_eq_of_lt hfits])

/-- The payload that CTRL_CHECK finds in ACC is the byte received. -/
theorem ctrlPayload_atCtrlCheck (hfits : b.toNat < 2 ^ s.cfg.ctrlBits) :
    ctrlPayload s.cfg.toParams (atCtrlCheck b s).acc = b :=
  BitVec.eq_of_toNat_eq (by rw [ctrlPayload_toNat, atCtrlCheck_acc_toNat, Nat.mod_mod, Nat.mod_eq_of_lt hfits])

/-- A received byte is CTRL_CHECK and one rule more (42_decoder.md R97, R99). -/
theorem receiveControl_of_ctrlCheckRule {u : State} (hb : s.busy = false) (h : ctrlCheckRule (atCtrlCheck b s) = .ok u) :
    receiveControl b s = ofRun (decodeRun 1 u) := by
  rw [receiveControl, if_neg (by simp [hb]), decodeRun_succ (by simp) ((decodeRule_ctrlCheck rfl).trans h)]

/-- The decoder completes on every byte. -/
theorem receiveControl_completes (b : ControlByte) (hb : s.busy = false) :
    ∃ t, receiveControl b s = .next t ∧ t.busy = false ∧ t.phase = .idle := by
  rw [receiveControl, if_neg (by simp [hb]), decodeRun_ctrlCheck rfl 0]
  refine ⟨_, rfl, ?_⟩
  split_ifs <;> exact ⟨rfl, rfl⟩

theorem receiveControl_of_raiseFail {r : Failure} (hb : s.busy = false)
    (h : ctrlCheckRule (atCtrlCheck b s) = .ok (raiseFail r (atCtrlCheck b s))) :
    receiveControl b s = .next (raiseFail r (atCtrlCheck b s)) := by
  rw [receiveControl_of_ctrlCheckRule hb h, decodeRun_idle (raiseFail_phase _ _), ofRun]

theorem receiveControl_of_badPrefix (hb : s.busy = false) (hfits : b.toNat < 2 ^ s.cfg.ctrlBits)
    (h : decodeCtrlByte s.cfg.toParams b = .error .badPrefix) :
    receiveControl b s = .next (raiseFail .prefixMismatch (atCtrlCheck b s)) :=
  receiveControl_of_raiseFail hb (by rw [ctrlCheckRule, atCtrlCheck_cfg, ctrlPayload_atCtrlCheck hfits, h])

theorem receiveControl_of_badType (hb : s.busy = false) (hfits : b.toNat < 2 ^ s.cfg.ctrlBits)
    (h : decodeCtrlByte s.cfg.toParams b = .error .badType) :
    receiveControl b s = .next (raiseFail .typeInvalid (atCtrlCheck b s)) :=
  receiveControl_of_raiseFail hb (by rw [ctrlCheckRule, atCtrlCheck_cfg, ctrlPayload_atCtrlCheck hfits, h])

theorem receiveControl_of_code {code : ControlCode} (hb : s.busy = false) (hfits : b.toNat < 2 ^ s.cfg.ctrlBits)
    (h : decodeCtrlByte s.cfg.toParams b = .ok code) :
    receiveControl b s = .next (finish (recordControl b (atCtrlCheck b s))) := by
  have hcheck : ctrlCheckRule (atCtrlCheck b s) = .ok (recordControl b (atCtrlCheck b s)) := by
    rw [ctrlCheckRule, atCtrlCheck_cfg, ctrlPayload_atCtrlCheck hfits, h]
  rw [receiveControl_of_ctrlCheckRule hb hcheck, decodeRun_succ (by simp) (s' := finish _) rfl, decodeRun_zero, ofRun]

end Received

/-- The byte of a code is recorded with its code (42_decoder.md R97, R99). -/
theorem receiveControl_ctrlByte (code : ControlCode) (hb : s.busy = false) :
    receiveControl (ctrlByte s.cfg.toParams code) s = .next { s with
      cursor := 3 + 2 * s.cfg.ctrlBits
      acc := (ctrlByte s.cfg.toParams code).setWidth 64
      nbits := BitVec.ofNat 7 s.cfg.ctrlBits
      isctrl := true
      res := ⟨1, 1, code.type, BitVec.ofNat 7 s.cfg.ctrlBits, (ctrlByte s.cfg.toParams code).setWidth 64,
        s.cfg.protocolId⟩
      phase := .idle } := by
  have hfits := ctrlByte_lt s.cfg code
  obtain ⟨-, htype⟩ := eq_ctrlByte_of_decodeCtrlByte hfits (decodeCtrlByte_ctrlByte s.cfg code)
  rw [receiveControl_of_code hb hfits (decodeCtrlByte_ctrlByte s.cfg code), hb]
  simp only [finish, recordControl, atCtrlCheck, ctrlPayload_of_fits hfits]
  rw [← htype]
  rfl

/-- Settles O32: the payload of a control byte's frame names the byte's code. -/
theorem controlBytesRecordTheirCode : Obligations.ControlBytesRecordTheirCode := fun code s hb =>
  (exec_ofControlCode code s).trans (receiveControl_ctrlByte code hb)

/-- Settles O31: the next state is determined by what the byte names. -/
theorem receivedControlByteOutcome : Obligations.ReceivedControlByteOutcome := by
  intro s b hb hc hprefix
  have ⟨_, _, hbits, _⟩ := hc
  have hfits : b.toNat < 2 ^ s.cfg.ctrlBits := by rw [hbits]; exact b.isLt
  obtain ⟨t, ht, hbusy, hphase⟩ := receiveControl_completes b hb
  have hframe := (atCtrlCheck_decodeFrame b s).trans (decodeRun_decodeFrame (receiveControl_eq_next ht).2)
  refine ⟨t, ht, fun hmem => ?_, fun hmem => ?_, fun hother => ?_, hbusy, hphase, hframe.trace_eq, hframe.capture_eq⟩
  · obtain ⟨code, rfl, htype⟩ := eq_ctrlByte_of_mem hc hprefix hmem
    cases ht.symm.trans (receiveControl_ctrlByte code hb)
    rw [htype, hbits]
    rfl
  · cases ht.symm.trans (receiveControl_of_badType hb hfits (decodeCtrlByte_badType hc hprefix hmem))
    rfl
  · cases ht.symm.trans (receiveControl_of_badPrefix hb hfits (decodeCtrlByte_badPrefix hc hprefix hother))
    rfl

end Sys2Proof.Machine
end

section
/-! PROOFS. The tolerant matcher (40_timing_codec.md R74 to R78): MATCH is the integer inequality, its windows are closed
intervals; and the classifiers tell the symbols apart exactly where the windows of their pairs do not meet (R79, R80). -/

namespace Sys2Proof.Machine

/-! ### MATCH -/

/-- The model's natural-number form of the comparison is the integer inequality of 40_timing_codec.md R74. -/
theorem withinTolerance_eq_decide (t : Timing) (a e : Micros) :
    withinTolerance t a e = decide ((t.tolDen : Int) * |(a : Int) - (e : Int)| ≤ (t.tolNum : Int) * (e : Int)) := by
  rw [withinTolerance, scaledDeviation, ← Int.natCast_natAbs]
  exact decide_eq_decide.mpr (by norm_cast)

@[simp] theorem withinTolerance_self (t : Timing) (e : Micros) : withinTolerance t e e = true := by
  simp [withinTolerance, scaledDeviation]

theorem exec_matchOp (a e : Micros) (s : State) :
    exec (.matchOp a e) s = .next { s with ret := .matched (withinTolerance s.cfg.timing a e) } := rfl

/-- Settles O5: the answer is the integer form of the comparison. -/
theorem matchAnswersInRet : Obligations.MatchAnswersInRet := fun a e s => by
  rw [exec_matchOp, withinTolerance_eq_decide]

/-! ### The match windows -/

/-- At a tolerance of 1/4 a window reaches `e div 4` to either side (40_timing_codec.md R76). -/
theorem withinTolerance_quarter {t : Timing} (hnum : t.tolNum = 1) (hden : t.tolDen = 4) (a e : Micros) :
    withinTolerance t a e = true ↔ e - e / 4 ≤ a ∧ a ≤ e + e / 4 := by
  have hreach : windowReach t e = e / 4 := by rw [windowReach, hnum, hden, Nat.one_mul]
  rw [withinTolerance_iff (by omega), hreach]

theorem withinTolerance_normative_iff (a e : Micros) :
    withinTolerance Timing.normative a e = true ↔ e - e / 4 ≤ a ∧ a ≤ e + e / 4 :=
  withinTolerance_quarter rfl rfl a e

/-- Only a zero duration matches an expected value of 0 (40_timing_codec.md R74). -/
theorem withinTolerance_normative_zero_iff (a : Micros) : withinTolerance Timing.normative a 0 = true ↔ a = 0 := by
  rw [withinTolerance_normative_iff]
  unfold Micros at *
  omega

/-- A zero duration matches no other expected value (40_timing_codec.md R74). -/
theorem withinTolerance_normative_of_zero {e : Micros} (he : 0 < e) : withinTolerance Timing.normative 0 e = false := by
  rw [Bool.eq_false_iff, ne_eq, withinTolerance_normative_iff]
  unfold Micros at *
  omega

/-- Settles O4: the integer form, its corner cases by the window, and the frame of MATCH. -/
theorem matchIsTheExactTolerance : Obligations.MatchIsTheExactTolerance :=
  ⟨fun t a e => by rw [withinTolerance_eq_decide, decide_eq_true_iff], withinTolerance_self,
    withinTolerance_normative_zero_iff, fun _ => withinTolerance_normative_of_zero, by decide, by decide,
    fun _ _ _ => rfl, fun a e s => ⟨_, exec_matchOp a e s, rfl⟩⟩

/-- Settles O6: the window at a tolerance of 1/4, and its boundary for 560 evaluated. -/
theorem matchWindowIsAClosedInterval : Obligations.MatchWindowIsAClosedInterval :=
  ⟨fun _ a e hnum hden => withinTolerance_quarter hnum hden a e, withinTolerance_self _ _, by decide, by decide,
    by decide, by decide⟩

/-- Settles O7: each window is `e - e / 4` to `e + e / 4`, evaluated at its constant. -/
theorem normativeMatchWindows : Obligations.NormativeMatchWindows := fun a =>
  have window := withinTolerance_normative_iff a
  ⟨window _, window _, window _, window _, window _, window _, window _⟩

/-! ### The classifiers -/

/-- The windows of two symbols meet in the mark and in the space exactly where some pair is in both. -/
theorem pairWindowsMeet_iff (t : Timing) (mark space mark' space' : Micros) :
    (windowsMeet t mark mark' && windowsMeet t space space') = true ↔
      ∃ m s, (withinTolerance t m mark && withinTolerance t s space) = true ∧
        (withinTolerance t m mark' && withinTolerance t s space') = true := by
  simp only [Bool.and_eq_true, windowsMeet_iff]
  constructor
  · rintro ⟨⟨m, hm, hm'⟩, s, hs, hs'⟩
    exact ⟨m, s, ⟨hm, hs⟩, hm', hs'⟩
  · rintro ⟨m, s, ⟨hm, hs⟩, hm', hs'⟩
    exact ⟨⟨m, hm, hm'⟩, s, hs, hs'⟩

theorem pairWindowsApart_iff (t : Timing) (mark space mark' space' : Micros) :
    (!(windowsMeet t mark mark' && windowsMeet t space space')) = true ↔
      ∀ m s, ¬ ((withinTolerance t m mark && withinTolerance t s space) = true ∧
        (withinTolerance t m mark' && withinTolerance t s space') = true) := by
  rw [Bool.not_eq_true', ← Bool.not_eq_true, pairWindowsMeet_iff]
  simp only [not_exists]

/-- The check of a `Timing` is exact: it passes where no pair is classified two ways (40_timing_codec.md R80). -/
theorem windowsApart_iff (t : Timing) :
    windowsApart t = true ↔ ∀ m s : Micros,
      ¬ (isOne t m s = true ∧ isZero t m s = true) ∧
      ¬ (isHeader t m s = true ∧ isOne t m s = true) ∧
      ¬ (isHeader t m s = true ∧ isZero t m s = true) := by
  rw [windowsApart, Bool.and_eq_true, Bool.and_eq_true, pairWindowsApart_iff, pairWindowsApart_iff, pairWindowsApart_iff]
  simp only [← forall_and, and_assoc, isOne, isZero, isHeader]

theorem windowsApart_normative : windowsApart Timing.normative = true := by decide

/-- A pair in the window of Logical 1 is read as 1, whatever other window it is in (40_timing_codec.md R80). -/
theorem getbit_of_isOne {t : Timing} {m s : Micros} (before after : List Micros) (h : isOne t m s = true) :
    getbit t (before ++ m :: s :: after) before.length = .ok (true, before.length + 2) := by
  rw [getbit_eq]
  simp [bitAt, h]

/-- Settles O8: the check is exact and the normative `Timing` passes it; GETBIT tests Logical 1 first. -/
theorem noPairIsClassifiedTwoWays : Obligations.NoPairIsClassifiedTwoWays :=
  ⟨(windowsApart_iff _).mp windowsApart_normative,
    fun c htiming => by rw [c.windowsApart_eq, htiming, windowsApart_normative],
    fun c => by rw [c.windowsApart_eq, windowsApart_iff],
    fun _ _ _ before after => getbit_of_isOne before after⟩

end Sys2Proof.Machine
end

section
/-! PROOFS. The two forms of a command (log 4): presented to run stepwise, with nothing else from outside, it ends as the
same command run in one step (41_sender.md R82; 42_decoder.md R90). -/

namespace Sys2Proof.Machine

variable {s t : State}

/-! ### Runs of the core -/

theorem hostRun_succ {M : Host.Core} {u v : M.State} (h : M.step u = .next v) (n : Nat) : M.run (n + 1) u = M.run n v := by
  rw [Host.Core.run, h]

/-- `n` steps of the core, in the terms of the model: the run of the host's interface. -/
def coreRun (n : Nat) (s : State) : Host.Outcome State Fault Refusal := Host.Core.run core n s

theorem coreRun_succ (h : step s = .next t) (n : Nat) : coreRun (n + 1) s = coreRun n t := hostRun_succ (M := core) h n

/-- The idle core with nothing presented stays as it is (60_exceptions.md R128; log 22). -/
theorem step_quiescent (hb : s.busy = false) (hin : s.inputs = []) : step s = .next s := by
  rw [step, if_neg (by simp [hb]), idleStep, hin]

theorem coreRun_quiescent (hb : s.busy = false) (hin : s.inputs = []) (n : Nat) : coreRun n s = .next s := by
  induction n with
  | zero => rfl
  | succ n ih => rw [coreRun_succ (step_quiescent hb hin), ih]

/-- With nothing presented, a command in progress goes on. -/
theorem step_busy (hb : s.busy = true) (hin : s.inputs = []) : step s = commandRule s := by
  rw [step, if_pos hb, busyStep, hin]

theorem step_present_of_decode {w : CommandWord} {c : Command} (hb : s.busy = false) (h : decodeCommand w = .ok c)
    (rest : List Input) :
    step { s with inputs := .present w :: rest } = .next (beginCommand c { s with inputs := rest }) :=
  calc step { s with inputs := .present w :: rest }
    _ = presentWord w { s with inputs := rest } := step_present hb rfl
    _ = .next (beginCommand c { s with inputs := rest }) := by rw [presentWord, h]

/-! ### A SEND -/

theorem step_sending (hb : s.busy = true) (hin : s.inputs = []) (hp : s.phase = .idle) : step s = .next (sendRule s) := by
  rw [step_busy hb hin, commandRule, hp]

/-- A SEND one pulse on: `p` emitted, `ps` still to emit. -/
def pulseSent (p : Pulse) (ps : List Pulse) (s : State) : State :=
  { emit p s with sending := ps, lastSend := s.lastSend ++ [p] }

theorem sendRule_of_nil (h : s.sending = []) : sendRule s = completeSend s := by
  rw [sendRule, h]

theorem sendRule_of_cons {p : Pulse} {ps : List Pulse} (h : s.sending = p :: ps) : sendRule s = pulseSent p ps s := by
  rw [sendRule, h]
  rfl

/-- A SEND in progress emits what it has still to emit, one pulse a step, and completes. -/
theorem coreRun_sending (hb : s.busy = true) (hin : s.inputs = []) (hp : s.phase = .idle) (n : Nat) :
    coreRun (s.sending.length + (n + 1)) s = .next { s with
      trace := s.trace ++ s.sending
      sending := []
      lastSend := s.lastSend ++ s.sending
      levelOpen := if s.sending = [] then s.levelOpen else none
      busy := false } := by
  generalize hps : s.sending = ps
  induction ps generalizing s with
  | nil =>
    rw [List.length_nil, Nat.zero_add, coreRun_succ (step_sending hb hin hp), sendRule_of_nil hps,
      coreRun_quiescent (completeSend_busy s) hin]
    simp [completeSend, ← hps]
  | cons p ps ih =>
    rw [List.length_cons, Nat.add_right_comm, coreRun_succ (step_sending hb hin hp), sendRule_of_cons hps,
      ih (s := pulseSent p ps s) hb hin hp rfl]
    simp [pulseSent, emit]

/-- A SEND accepted by the idle core ends stepwise as in one step (41_sender.md R82). -/
theorem coreRun_beginSend (hb : s.busy = false) (hp : s.phase = .idle) (hsend : s.sending = []) (hin : s.inputs = [])
    {ps : List Pulse} {n : Nat} (hn : ps.length + 1 ≤ n) :
    coreRun n (beginSend ps s) = sendCommand ps s := by
  have hfuel : n = (beginSend ps s).sending.length + (n - (ps.length + 1) + 1) := by rw [beginSend_sending]; omega
  rw [sendCommand_eq, if_neg (Bool.eq_false_iff.mp hb), hfuel, coreRun_sending (beginSend_busy s ps) hin hp]
  simp [beginSend, accept, hsend, hb]

/-! ### A DECODE -/

theorem step_decoding (hb : s.busy = true) (hin : s.inputs = []) (hp : s.phase ≠ .idle) :
    step s = ofRun (decodeRule s) := by
  rw [step_busy hb hin, commandRule]
  split
  case h_1 h => exact absurd h hp
  case h_2 => rfl

/-- A run of the state machine that ends the DECODE is a run of the core, which then stays as it is. -/
theorem coreRun_of_decodeRun (hidle : s.busy = false → s.phase = .idle) (hin : s.inputs = []) {m n : Nat} (hmn : m ≤ n)
    (h : decodeRun m s = .ok t) (ht : t.busy = false) : coreRun n s = .next t := by
  induction m generalizing s n with
  | zero =>
    cases h
    exact coreRun_quiescent ht hin n
  | succ m ih =>
    by_cases hp : s.phase = .idle
    · rw [decodeRun_idle hp] at h
      cases h
      exact coreRun_quiescent ht hin n
    · have hb : s.busy = true := Bool.not_eq_false _ ▸ mt hidle hp
      obtain ⟨n, rfl⟩ : ∃ k, n = k + 1 := Nat.exists_eq_succ_of_ne_zero (by omega)
      cases hrule : decodeRule s with
      | error f =>
        rw [decodeRun, hrule] at h
        split at h <;> cases h
        contradiction
      | ok u =>
        rw [decodeRun_succ hp hrule] at h
        rw [coreRun_succ (t := u) (by rw [step_decoding hb hin hp, hrule, ofRun])]
        exact ih (decodeRule_idle_when_free hidle hrule) ((decodeRule_decodeFrame hrule).inputs_eq.trans hin)
          (Nat.le_of_succ_le_succ hmn) h

/-- A DECODE accepted by the idle core ends stepwise as in one step (42_decoder.md R90, R105). -/
theorem coreRun_beginDecode (hb : s.busy = false) (hin : s.inputs = []) {n : Nat} (hn : decodeFuel ≤ n) :
    coreRun n (beginDecode s) = execDecode s := by
  rw [execDecode_eq hb]
  exact coreRun_of_decodeRun (s := beginDecode s) nofun hin hn (decodeRun_beginDecode s) rfl

/-! ### Every command -/

theorem coreRun_beginCommand (c : Command) (hs : Consistent s) (hb : s.busy = false) (hin : s.inputs = []) {n : Nat}
    (hn : commandBound s.cfg c ≤ n) : coreRun n (beginCommand c s) = exec (Instr.ofCommand c) s := by
  obtain ⟨hp, hsend⟩ := hs.idle_when_free hb
  cases c with
  | sendControl code => exact (coreRun_beginSend hb hp hsend hin hn).trans (exec_ofSendControl code s).symm
  | sendData v count => exact coreRun_beginSend hb hp hsend hin hn
  | decode => exact coreRun_beginDecode hb hin hn

/-- Settles O50: the first step accepts the command, and the rest of the run is a simulation of its one step, pulse by pulse
or rule by rule. -/
theorem stepwiseCommandEndsAsTheAtomicOne : Obligations.StepwiseCommandEndsAsTheAtomicOne := by
  intro s w c n hs hb hw hn
  calc coreRun (n + 1) { s with inputs := [.present w] }
    _ = coreRun n (beginCommand c { s with inputs := [] }) := coreRun_succ (step_present_of_decode hb hw []) n
    _ = exec (Instr.ofCommand c) { s with inputs := [] } := coreRun_beginCommand c (hs.withInputs []) hb rfl hn

end Sys2Proof.Machine
end

section
/-! PROOFS. The Sender (41_sender.md R83 to R88): what each emission appends to TRACE, and what a frame looks like on the
wire. -/

namespace Sys2Proof.Machine

variable {s : State}

/-! ### The internal emissions -/

theorem exec_sendBit (b : Bool) (s : State) :
    exec (.sendBit b) s = .next { s with trace := s.trace ++ bitPulses s.cfg.timing b, levelOpen := none } :=
  congrArg _ (emitAll_symbolPulses _ _ s)

theorem exec_sendHdr (s : State) :
    exec .sendHdr s = .next { s with trace := s.trace ++ headerPulses s.cfg.timing, levelOpen := none } :=
  congrArg _ (emitAll_symbolPulses _ _ s)

theorem exec_sendEnd (s : State) :
    exec .sendEnd s = .next { s with trace := s.trace ++ endPulses s.cfg.timing, levelOpen := none } :=
  congrArg _ (emitAll_symbolPulses _ _ s)

/-- Settles O10: the pair of the bit is appended, and for the normative `Timing` it is evaluated. -/
theorem sendBitAppendsOnePair : Obligations.SendBitAppendsOnePair := by
  refine ⟨fun b s => ⟨_, exec_sendBit b s, rfl, rfl, rfl, fun htiming hb => ?_, fun htiming hb => ?_⟩, fun _ _ => rfl⟩
  · rw [htiming, hb]; rfl
  · rw [htiming, hb]; rfl

/-- Settles O11: the header's pair is appended, and for the normative `Timing` it is evaluated. -/
theorem sendHdrAppendsTheHeader : Obligations.SendHdrAppendsTheHeader :=
  ⟨fun s => ⟨_, exec_sendHdr s, rfl, rfl, rfl, fun htiming => by rw [htiming]; rfl⟩, fun _ => rfl⟩

/-- A trace that ends with an end marker leaves the emitter off (10_state.md R31). -/
theorem emitterOn_of_endPulses {t : Timing} {tr : List Pulse} (hopen : s.levelOpen = none)
    (htrace : s.trace = tr ++ endPulses t) : emitterOn s = false := by
  obtain ⟨-, hspace, -⟩ := emitterLevelFollowsTheLastPulse s hopen
  exact hspace (tr ++ [Pulse.mark t.endMark]) t.endSpace (by simp [htrace, endPulses])

/-- Settles O12: the end marker's pair is appended, and its space turns the emitter off. -/
theorem sendEndTurnsTheEmitterOff : Obligations.SendEndTurnsTheEmitterOff :=
  ⟨fun s => ⟨_, exec_sendEnd s, emitterOn_of_endPulses rfl rfl, rfl, rfl, rfl, fun htiming => by rw [htiming]; rfl⟩,
    fun _ => rfl⟩

/-! ### The pulses of a frame -/

/-- The bits from the top one down, by their place in the transmission (30_encoding.md R57). -/
theorem msbFirst_eq_map (bit : Nat → Bool) (n : Nat) :
    msbFirst bit n = (List.range n).map fun k => bit (n - 1 - k) := by
  induction n with
  | zero => rfl
  | succ n ih =>
    rw [msbFirst, ih, List.range_succ_eq_map, List.map_cons, List.map_map]
    refine congrArg₂ List.cons (by simp) (List.map_congr_left fun k _ => congrArg bit ?_)
    omega

theorem length_msbFirst (bit : Nat → Bool) (n : Nat) : (msbFirst bit n).length = n := by
  rw [msbFirst_eq_map, List.length_map, List.length_range]

/-- A frame of bits sent from the top one down: the header, a pair for each bit, and the end marker. -/
theorem framePulses_msbFirst (t : Timing) (bit : Nat → Bool) (n : Nat) :
    framePulses t (msbFirst bit n) =
      headerPulses t ++ (List.range n).flatMap (fun k => bitPulses t (bit (n - 1 - k))) ++ endPulses t := by
  rw [framePulses, msbFirst_eq_map, List.flatMap_map]

/-- The durations of a frame's symbols, each a mark and a space: the header, the bits and the end marker. -/
def frameSymbols (t : Timing) (payload : List Bool) : List (Micros × Micros) :=
  [(t.hdrMark, t.hdrSpace)] ++ payload.map (fun b => (markOf t b, spaceOf t b)) ++ [(t.endMark, t.endSpace)]

theorem framePulses_eq_flatMap (t : Timing) (payload : List Bool) :
    framePulses t payload = (frameSymbols t payload).flatMap fun d => [Pulse.mark d.1, Pulse.space d.2] := by
  simp only [frameSymbols, List.flatMap_append, List.flatMap_map, List.flatMap_singleton]
  rfl

theorem length_frameSymbols (t : Timing) (payload : List Bool) : (frameSymbols t payload).length = payload.length + 2 := by
  simp [frameSymbols]

/-- Two pulses for the header, for each bit and for the end marker (41_sender.md R86, R87). -/
theorem length_framePulses (t : Timing) (payload : List Bool) :
    (framePulses t payload).length = 2 * payload.length + 4 := by
  rw [framePulses_eq_flatMap, length_flatMap_pair, length_frameSymbols, Nat.mul_add]

/-! ### The SEND commands -/

/-- A SEND at BUSY = 0 completes, with its pulses on TRACE and nothing else written but the model's own fields. -/
theorem sendCommand_emits (ps : List Pulse) (hb : s.busy = false) :
    ∃ t, sendCommand ps s = .next t ∧ EmissionFrame s t ∧ t.trace = s.trace ++ ps := by
  rw [sendCommand_eq, if_neg (Bool.eq_false_iff.mp hb)]
  exact ⟨_, rfl, rfl, rfl⟩

theorem controlPulses_length (c : Config) (code : ControlCode) : (controlPulses c code).length = 2 * c.ctrlBits + 4 := by
  rw [controlPulses, length_framePulses, length_msbFirst]

/-- The first bit of a control frame is the top bit of `CTRL_PREFIX`, which is 1 (30_encoding.md R62). -/
theorem ctrlByte_top (c : Config) (code : ControlCode) :
    (ctrlByte c.toParams code).getLsbD (c.ctrlBits - 1) = true := by
  have hsplit := c.ctrlBits_split
  have hpos := c.ctrlPrefixBits_pos
  have htop : c.ctrlBits - 1 - c.ctrlTypeBits = c.ctrlPrefixBits - 1 := by omega
  rw [BitVec.getLsbD, ctrlByte_toNat, Nat.mul_comm, Nat.testBit_two_pow_mul_add _ (type_lt c code),
    if_neg (by omega), htop]
  exact c.ctrlPrefix_top

/-- With R7's constants the bits sent are the eight of `{CTRL_PREFIX[4:0], code[2:0]}` (41_sender.md R86). -/
theorem controlPulses_of_countsOfR7 {c : Config} (hc : c.CountsOfR7) (code : ControlCode) :
    controlPulses c code = framePulses c.timing (msbFirst (c.ctrlPrefix ++ code.type : BitVec 8).getLsbD 8) := by
  have ⟨_, _, hbits, _⟩ := hc
  rw [controlPulses, ctrlByte_of_countsOfR7 hc, hbits]

/-- Settles O14: SEND_CONTROL is the SEND of its frame, the frame's bits are the control byte's from the top one down, and
the example is evaluated. -/
theorem sendControlEmitsTheControlFrame : Obligations.SendControlEmitsTheControlFrame := by
  refine ⟨fun code s hb => ?_, fun code c => ?_, fun code c hc => ?_, fun w hop => ⟨fun code hty => ?_, fun hty => ?_⟩,
    fun c htiming hc hprefix => ?_⟩
  · rw [exec_ofSendControl]
    exact sendCommand_emits _ hb
  · exact ⟨framePulses_msbFirst _ _ _, controlPulses_length c code, ctrlByte_top c code⟩
  · have ⟨_, _, hbits, _⟩ := hc
    have htop := ctrlByte_top c code
    rw [ctrlByte_of_countsOfR7 hc, hbits] at htop
    refine ⟨?_, by rw [controlPulses_length, hbits], htop⟩
    rw [controlPulses_of_countsOfR7 hc]
    exact framePulses_msbFirst _ _ _
  · exact decode_of_ok (decodeCommand_sendControl hop hty)
  · exact decode_of_error (decodeCommand_reservedCtype hop hty)
  · rw [controlPulses_of_countsOfR7 hc, htiming, hprefix]
    rfl

theorem dataPulses_of_le {c : Config} {n : BitVec 8} (hn : n.toNat ≤ c.maxDataBits) (v : DataValue) :
    dataPulses c v n = framePulses c.timing (msbFirst v.getLsbD n.toNat) :=
  if_neg (Nat.not_lt.mpr hn)

theorem dataPulses_of_gt {c : Config} {n : BitVec 8} (hn : c.maxDataBits < n.toNat) (v : DataValue) :
    dataPulses c v n = [] :=
  if_pos hn

/-- Settles O15: SEND_DATA is the SEND of the frame of the selected bits, or of no pulses, and the examples are evaluated. -/
theorem sendDataEmitsTheSelectedBits : Obligations.SendDataEmitsTheSelectedBits := by
  refine ⟨fun v n s hb => ?_, fun v n c hn => ?_, fun w hop => decode_of_ok (decodeCommand_sendData hop),
    fun c htiming hc => ?_⟩
  · obtain ⟨t, ht, hframe, htrace⟩ := sendCommand_emits (dataPulses s.cfg v n) hb
    refine ⟨t, ht, hframe, fun _ => htrace, fun hn => ?_, fun ⟨_, hmax, _⟩ => hmax⟩
    rw [htrace, dataPulses_of_gt hn, List.append_nil]
  · rw [dataPulses_of_le hn]
    exact ⟨framePulses_msbFirst _ _ _, by rw [length_framePulses, length_msbFirst]⟩
  · obtain ⟨-, hmax, -⟩ := hc
    rw [dataPulses_of_le (by rw [hmax]; decide), dataPulses_of_le (by rw [hmax]; decide), htiming]
    exact ⟨rfl, rfl⟩

/-! ### Brackets and alternation -/

/-- Every SEND that emits anything emits a frame. -/
theorem eq_framePulses_of_sent {c : Config} {ps : List Pulse} (hne : ps ≠ [])
    (hps : (∃ code, ps = controlPulses c code) ∨ ∃ v n, ps = dataPulses c v n) :
    ∃ payload, ps = framePulses c.timing payload := by
  obtain ⟨code, rfl⟩ | ⟨v, n, rfl⟩ := hps
  · exact ⟨_, rfl⟩
  · rcases Nat.lt_or_ge c.maxDataBits n.toNat with hn | hn
    · exact absurd (dataPulses_of_gt hn v) hne
    · exact ⟨_, dataPulses_of_le hn v⟩

/-- A frame alternates mark and space, from a mark (41_sender.md R88). -/
theorem framePulses_alternates (t : Timing) (payload : List Bool) {i : Nat} (hi : i < (framePulses t payload).length) :
    ∃ d, (framePulses t payload)[i]? = some (if i % 2 = 0 then .mark d else .space d) := by
  rw [length_framePulses] at hi
  have hk : i / 2 < (frameSymbols t payload).length := by rw [length_frameSymbols]; omega
  obtain ⟨hmark, hspace⟩ :=
    getElem?_flatMap_pair (fun d => Pulse.mark d.1) (fun d => Pulse.space d.2) (frameSymbols t payload) (i / 2)
  rw [← framePulses_eq_flatMap, List.getElem?_eq_getElem hk] at hmark hspace
  rcases Nat.mod_two_eq_zero_or_one i with heven | hodd
  · rw [show 2 * (i / 2) = i by omega] at hmark
    exact ⟨_, by rw [hmark, if_pos heven]; rfl⟩
  · rw [show 2 * (i / 2) + 1 = i by omega] at hspace
    exact ⟨_, by rw [hspace, if_neg (by omega)]; rfl⟩

/-- The last two pulses of a frame are the end marker. -/
theorem drop_framePulses (t : Timing) (payload : List Bool) :
    (framePulses t payload).drop ((framePulses t payload).length - 2) = endPulses t := by
  rw [framePulses, List.length_append]
  exact List.drop_left

/-- A pulse that stands in no bit is counted in the header and in the end marker only. -/
theorem count_framePulses {t : Timing} {p : Pulse} (hbit : ∀ b, p ∉ bitPulses t b) (payload : List Bool) :
    (framePulses t payload).count p = (headerPulses t).count p + (endPulses t).count p := by
  have hpayload : (payload.flatMap (bitPulses t)).count p = 0 :=
    List.count_eq_zero.mpr fun hmem => by
      obtain ⟨b, -, hb⟩ := List.mem_flatMap.mp hmem
      exact hbit b hb
  rw [framePulses, List.count_append, List.count_append, hpayload, Nat.add_zero]

/-- Settles O16: a SEND that emits anything emits a frame, and a frame is its header, its bits and its end marker, each a
mark and a space. -/
theorem everySentFrameIsBracketedAndAlternates : Obligations.EverySentFrameIsBracketedAndAlternates := by
  intro c ps hne hps
  obtain ⟨payload, rfl⟩ := eq_framePulses_of_sent hne hps
  refine ⟨rfl, drop_framePulses _ _, ?_, fun i hi => framePulses_alternates _ _ hi, fun htiming => ?_⟩
  · rw [length_framePulses]
    omega
  · rw [htiming]
    refine ⟨?_, ?_, ?_⟩ <;> (rw [count_framePulses (by decide)]; rfl)

end Sys2Proof.Machine
end

section
/-! PROOFS. The rules of the decode state machine (42_decoder.md R92 to R99), each as the next state it
leaves. -/

namespace Sys2Proof.Machine

variable {s : State} {tm : Timing} {xs ys : List Micros}

/-! ### GETBIT -/

theorem bitAt_eq_isOne {i : Nat} (h : i + 1 < xs.length) :
    bitAt tm xs i = isOne tm (xs.getD i 0) (xs.getD (i + 1) 0) := by
  rw [bitAt, decide_eq_true h, Bool.true_and]

/-- With no complete pair left GETBIT reads 0 (42_decoder.md R95). -/
theorem bitAt_of_exhausted {i : Nat} (h : xs.length ≤ i + 1) : bitAt tm xs i = false := by
  rw [bitAt, decide_eq_false (Nat.not_lt.mpr h), Bool.false_and]

theorem exec_getBit (c : Nat) (s : State) :
    exec (.getBit c) s = .next { s with ret := .gotBit (bitAt s.cfg.timing s.capture c) (c + 2) } := by
  show execGetBit c s = _
  rw [execGetBit, getbit_eq]

/-- Settles O34: GETBIT reads a complete pair by the classifier of Logical 1, and 0 where none is left. -/
theorem getBitReadsOnePair : Obligations.GetBitReadsOnePair := by
  refine ⟨fun tm xs c => ⟨fun hend => ?_, fun hpair => ?_, fun hpair _ hone => ?_⟩, fun c s => ⟨_, exec_getBit c s, rfl⟩,
    fun _ _ => rfl, fun xs hmark hspace hlen => ?_, fun tm xs hlen => ?_⟩
  · rw [getbit_eq, bitAt_of_exhausted hend]
  · rw [getbit_eq, bitAt_eq_isOne hpair]
  · rw [getbit_eq, bitAt_eq_isOne hpair, hone]
  · rw [getbit_eq, bitAt_eq_isOne hlen, hmark, hspace]
    rfl
  · rw [getbit_eq, bitAt_of_exhausted hlen.le]

/-- Settles O35: the answer is the closed form's bit. -/
theorem getBitAnswersInRet : Obligations.GetBitAnswersInRet := exec_getBit

/-! ### LENGTH_CHECK, HEADER_CHECK and DISCRIMINATE -/

theorem decodeRule_lengthCheck (hp : s.phase = .lengthCheck) :
    decodeRule s = .ok (if s.capture.length < s.cfg.minCaptureLen then raiseFail .bufferTooShort s
      else { s with phase := .headerCheck }) := by
  rw [decodeRule, hp]
  exact (apply_ite Except.ok _ _ _).symm

/-- Settles O36, by the two rules; a capture of `MIN_CAPTURE_LEN` samples has the header's pair. -/
theorem lengthAndHeaderRules : Obligations.LengthAndHeaderRules := by
  refine fun s => ⟨fun ⟨_, _, _, _, _, hmin⟩ => hmin, decodeRule_lengthCheck, fun hp hlen => ?_⟩
  have hmin := s.cfg.minCaptureLen_le
  exact (decodeRule_headerCheck hp).trans (headerCheckRule_eq (by omega))

/-! ### The reads -/

/-- The bit goes in below `ACC[62:0]` (42_decoder.md R96, R98). -/
theorem concat_eq_shiftLeft_or (a : BitVec 64) (b : Bool) :
    (a.setWidth 63).concat b = (a <<< 1) ||| (BitVec.ofBool b).setWidth 64 := by
  refine BitVec.eq_of_getLsbD_eq fun i hi => ?_
  cases i with
  | zero => simp
  | succ i => simp [hi, BitVec.getLsbD_eq_getElem (show i < 64 by omega)]

theorem shiftIn_eq (b : Bool) (c' : Nat) (s : State) :
    shiftIn b c' s = { s with
      cursor := c', nbits := s.nbits + 1, acc := (s.acc <<< 1) ||| (BitVec.ofBool b).setWidth 64 } := by
  rw [shiftIn, concat_eq_shiftLeft_or]

theorem decodeRule_ctrlRead (hp : s.phase = .ctrlRead) :
    decodeRule s = .ok (if s.nbits.toNat < s.cfg.ctrlBits
      then shiftIn (bitAt s.cfg.timing s.capture s.cursor) (s.cursor + 2) s
      else { s with phase := .ctrlCheck }) := by
  rw [decodeRule, hp]
  show ctrlReadRule s = _
  rw [ctrlReadRule, readBitRule_eq]
  exact (apply_ite Except.ok _ _ _).symm

theorem decodeRule_dataRead (hp : s.phase = .dataRead) :
    decodeRule s = .ok (if s.cursor + 1 < s.capture.length ∧ s.nbits.toNat < s.cfg.maxDataBits
      then shiftIn (bitAt s.cfg.timing s.capture s.cursor) (s.cursor + 2) s
      else recordData s) := by
  rw [decodeRule, hp]
  show dataReadRule s = _
  rw [dataReadRule, readBitRule_eq]
  exact (apply_ite Except.ok _ _ _).symm

/-- Settles O37: DISCRIMINATE and a read of DATA_READ have their pair in the capture, so the bit is the classifier's. -/
theorem discriminateAndReadRules : Obligations.DiscriminateAndReadRules := by
  refine fun s => ⟨fun hp hcursor hlen => ?_, fun hp => ?_, fun hp => ?_⟩
  · have hpair : s.cursor + 1 < s.capture.length := by have := s.cfg.minCaptureLen_le; omega
    rw [decodeRule_discriminate hp, discriminateRule_eq hpair, bitAt_eq_isOne hpair, hcursor]
  · rw [decodeRule_ctrlRead hp, shiftIn_eq]
    rfl
  · rw [decodeRule_dataRead hp]
    split_ifs with hmore
    · obtain ⟨hpair, -⟩ := hmore
      rw [shiftIn_eq, bitAt_eq_isOne hpair]
    · rfl

/-! ### CTRL_CHECK and DONE -/

theorem decodeRule_done (hp : s.phase = .done) : decodeRule s = .ok (finish s) := by
  rw [decodeRule, hp]

/-- What CTRL_CHECK records of a control payload, as numbers (42_decoder.md R97). -/
theorem recordControl_eq (s : State) :
    recordControl (ctrlPayload s.cfg.toParams s.acc) s = { s with
      res := { s.res with
        kind := 1
        ctype := BitVec.ofNat 3 (s.acc.toNat % 2 ^ s.cfg.ctrlTypeBits)
        bits := s.nbits
        value := BitVec.ofNat 64 (s.acc.toNat % 2 ^ s.cfg.ctrlBits) }
      phase := .done } := by
  have hle : s.cfg.ctrlTypeBits ≤ s.cfg.ctrlBits := by have := s.cfg.ctrlBits_split; omega
  have htype : (typeField s.cfg.toParams (ctrlPayload s.cfg.toParams s.acc)).setWidth 3 =
      BitVec.ofNat 3 (s.acc.toNat % 2 ^ s.cfg.ctrlTypeBits) := by
    rw [← Nat.mod_mod_of_dvd s.acc.toNat (Nat.pow_dvd_pow 2 hle), ← ctrlPayload_toNat, ← typeField_toNat,
      BitVec.ofNat_toNat]
  have hvalue : (ctrlPayload s.cfg.toParams s.acc).setWidth 64 =
      BitVec.ofNat 64 (s.acc.toNat % 2 ^ s.cfg.ctrlBits) := by
    rw [← ctrlPayload_toNat, BitVec.ofNat_toNat]
  rw [recordControl, htype, hvalue]
  rfl

/-- `B[7:3]` of the low byte of a word, as a number. -/
theorem extractLsb'_prefix_eq_iff {w : Nat} (x : BitVec w) (p : BitVec 5) :
    x.extractLsb' 3 5 = p ↔ x.toNat % 2 ^ 8 / 2 ^ 3 = p.toNat := by
  rw [← BitVec.toNat_inj, BitVec.extractLsb'_toNat, Nat.shiftRight_eq_div_pow]
  omega

/-- The lowest bits of a word, as a number. -/
theorem extractLsb'_low_eq {w : Nat} (x : BitVec w) (n : Nat) : x.extractLsb' 0 n = BitVec.ofNat n (x.toNat % 2 ^ n) := by
  apply BitVec.eq_of_toNat_eq
  rw [BitVec.extractLsb'_toNat, BitVec.toNat_ofNat, Nat.shiftRight_zero, Nat.mod_mod]

/-- `B[2:0]` names a code as a bit vector where it does as a number. -/
theorem extractLsb'_type_mem_iff {w : Nat} (x : BitVec w) :
    x.extractLsb' 0 3 ∈ [1#3, 2#3, 3#3, 4#3] ↔ x.toNat % 2 ^ 3 ∈ [1, 2, 3, 4] := by
  have hnumber : ∀ ty : BitVec 3, ty ∈ [1#3, 2#3, 3#3, 4#3] ↔ ty.toNat ∈ [1, 2, 3, 4] := by decide
  rw [hnumber, BitVec.extractLsb'_toNat, Nat.shiftRight_zero]

/-- Settles O38: the two checks as numbers are those of `B`'s fields, and what is recorded is the payload. -/
theorem controlCheckAndDoneRules : Obligations.ControlCheckAndDoneRules := by
  intro s
  have hrule (hp : s.phase = .ctrlCheck) := (decodeRule_ctrlCheck hp).trans (ctrlCheckRule_eq s)
  simp only [recordControl_eq] at hrule
  refine ⟨hrule, fun hp hc => ?_, decodeRule_done⟩
  obtain ⟨-, -, hbits, -, htype, -⟩ := hc
  have hvalue : (s.acc.extractLsb' 0 8).setWidth 64 = BitVec.ofNat 64 (s.acc.toNat % 2 ^ 8) := by
    apply BitVec.eq_of_toNat_eq
    rw [BitVec.toNat_setWidth, BitVec.extractLsb'_toNat, Nat.shiftRight_zero, BitVec.toNat_ofNat]
  rw [hrule hp, hbits, htype, hvalue]
  simp only [ne_eq, extractLsb'_prefix_eq_iff, extractLsb'_type_mem_iff]
  rw [extractLsb'_low_eq]
  rfl

end Sys2Proof.Machine
end

section
/-! PROOFS. The closed form of DECODE (42_decoder.md R101): its bits and its paths, and what they say of the outcome (R102,
R108, R110). -/

namespace Sys2Proof.Machine

variable {s : State} {c : Config} {t : Timing} {xs : List Micros}

theorem exec_decode (hb : s.busy = false) : exec .decode s = .next (decodedState s) := execDecode_eq hb

/-! ### The bits of the sum -/

/-- The bit read at the pair `3 + 2k` is bit `n - 1 - k` of the sum (42_decoder.md R101). -/
theorem testBit_bitSum (t : Timing) (xs : List Micros) (n i : Nat) :
    (bitSum t xs n).testBit i = (decide (i < n) && bitAt t xs (3 + 2 * (n - 1 - i))) := by
  induction n generalizing i with
  | zero => simp [bitSum_zero]
  | succ n ih =>
    rw [bitSum_succ, ← Nat.bit_val]
    cases i with
    | zero => simp
    | succ i =>
      rw [Nat.testBit_bit_succ, ih, show n + 1 - 1 - (i + 1) = n - 1 - i by omega]
      simp only [Nat.add_lt_add_iff_right]

/-- The top bit of the sum is the first bit read. -/
theorem testBit_bitSum_top {n : Nat} (hn : 0 < n) : (bitSum t xs n).testBit (n - 1) = bitAt t xs 3 := by
  rw [testBit_bitSum, Nat.sub_self, decide_eq_true (by omega), Bool.true_and]

/-- With a first bit of 0 the sum is short of its top bit (42_decoder.md R102). -/
theorem bitSum_lt_of_first_zero (hfirst : bitAt t xs 3 = false) {n : Nat} (hn : 0 < n) :
    bitSum t xs n < 2 ^ (n - 1) := by
  refine Nat.lt_pow_two_of_testBit _ fun i hi => ?_
  rcases Nat.lt_or_ge i n with hlt | hge
  · rw [show i = n - 1 by omega, testBit_bitSum_top hn, hfirst]
  · rw [testBit_bitSum, decide_eq_false (by omega), Bool.false_and]

/-! ### The paths -/

theorem decodeResult_of_short (hlen : xs.length < c.minCaptureLen) : decodeResult c xs = .failed .bufferTooShort :=
  if_pos hlen

theorem decodeResult_of_no_header (hlen : c.minCaptureLen ≤ xs.length) (hh : hasHeader c.timing xs = false) :
    decodeResult c xs = .failed .headerMismatch := by
  simp [decodeResult, Nat.not_lt.mpr hlen, hh]

theorem decodeResult_of_control (hlen : c.minCaptureLen ≤ xs.length) (hh : hasHeader c.timing xs = true)
    (hc : isControlFrame c.timing xs = true) :
    decodeResult c xs =
      if receivedPrefix c xs ≠ c.ctrlPrefix.toNat then .failed .prefixMismatch
      else if receivedType c xs ∉ [1, 2, 3, 4] then .failed .typeInvalid
      else .control (receivedType c xs) (receivedByte c xs) := by
  rw [decodeResult, if_neg (Nat.not_lt.mpr hlen), if_neg (not_not.mpr hh), if_pos hc]

theorem decodeResult_of_data (hlen : c.minCaptureLen ≤ xs.length) (hh : hasHeader c.timing xs = true)
    (hc : isControlFrame c.timing xs = false) :
    decodeResult c xs = .data (dataCount c xs) (bitSum c.timing xs (dataCount c xs)) := by
  rw [decodeResult, if_neg (Nat.not_lt.mpr hlen), if_neg (not_not.mpr hh), if_neg (by simp [hc])]

theorem dataCount_le (c : Config) (xs : List Micros) : dataCount c xs ≤ 64 :=
  (Nat.min_le_left _ _).trans (c.maxDataBits_le.trans c.wValue_le)

/-! ### The whole closed form -/

/-- Settles O39: the run of the state machine ends in the closed form, whose numbers are R7's under R7's constants. -/
theorem decodeIsTheClosedForm : Obligations.DecodeIsTheClosedForm := by
  refine ⟨fun s hb => exec_decode hb, fun c xs hc => ?_⟩
  obtain ⟨-, hmax, hbits, -, htype, hmin⟩ := hc
  have hbyte : receivedByte c xs = bitSum c.timing xs 8 := by rw [receivedByte, hbits]
  have hnumber : (BitVec.ofNat 8 (bitSum c.timing xs 8)).toNat = bitSum c.timing xs 8 :=
    (BitVec.toNat_ofNat _ _).trans (Nat.mod_eq_of_lt (bitSum_lt _ _ 8))
  have hprefix : (BitVec.ofNat 8 (bitSum c.timing xs 8)).extractLsb' 3 5 = c.ctrlPrefix ↔
      receivedPrefix c xs = c.ctrlPrefix.toNat := by
    rw [extractLsb'_prefix_eq_iff, hnumber, Nat.mod_eq_of_lt (bitSum_lt _ _ 8), receivedPrefix, hbyte, htype]
  have hcode : (BitVec.ofNat 8 (bitSum c.timing xs 8)).extractLsb' 0 3 ∈ [1#3, 2#3, 3#3, 4#3] ↔
      receivedType c xs ∈ [1, 2, 3, 4] := by
    rw [extractLsb'_type_mem_iff, hnumber, receivedType, hbyte, htype]
  have hfield : ((BitVec.ofNat 8 (bitSum c.timing xs 8)).extractLsb' 0 3).toNat = receivedType c xs := by
    rw [BitVec.extractLsb'_toNat, Nat.shiftRight_zero, hnumber, receivedType, hbyte, htype]
  have hcount : dataCount c xs = min 64 ((xs.length - 3) / 2) := by rw [dataCount, hmax]
  simp only [decodeResult, hmin, hasHeader, isControlFrame, hbyte, hcount, ne_eq, hprefix, hcode, hfield]

/-! ### The data path -/

/-- Settles O40: the number of bits is the closed form's, and the sum is short of its top bit. -/
theorem dataPathBitCountAndTopBit : Obligations.DataPathBitCountAndTopBit := by
  intro s hb hlen hh hc
  have hcount := dataCount_le s.cfg s.capture
  have hpos := dataCount_pos hlen
  have hbits : (BitVec.ofNat 7 (dataCount s.cfg s.capture)).toNat = dataCount s.cfg s.capture := by
    rw [BitVec.toNat_ofNat]
    omega
  have hfirst : bitAt s.cfg.timing s.capture 3 = false := isControlFrame_eq_bitAt hlen ▸ hc
  have hlt := bitSum_lt_of_first_zero hfirst hpos
  have hle : 2 ^ (dataCount s.cfg s.capture - 1) ≤ 2 ^ 64 := Nat.pow_le_pow_right (by decide) (by omega)
  have hvalue : (BitVec.ofNat 64 (bitSum s.cfg.timing s.capture (dataCount s.cfg s.capture))).toNat =
      bitSum s.cfg.timing s.capture (dataCount s.cfg s.capture) := by
    rw [BitVec.toNat_ofNat, Nat.mod_eq_of_lt (hlt.trans_le hle)]
  refine ⟨fun ⟨_, hmax, _, _, _, hmin⟩ => by omega, _, exec_decode hb, ?_⟩
  rw [decodedState, decodeResult_of_data hlen hh hc]
  simp only [resultRegs, hbits, hvalue, BitVec.getLsbD]
  refine ⟨trivial, trivial, rfl, hpos, fun n _ _ => ?_, fun n _ _ => ?_, fun _ => ?_, ?_, hlt⟩
  · rw [dataCount]; omega
  · rw [dataCount]; omega
  · rw [dataCount]; omega
  · rw [testBit_bitSum_top hpos, hfirst]

/-! ### The control path -/

/-- Settles O43: the first bit read is the top bit of what the control path reads. -/
theorem firstBitOneIsNeverData : Obligations.FirstBitOneIsNeverData := by
  intro s hb hlen hh hc
  have hread : bitsRead s.cfg s.capture = s.cfg.ctrlBits := (bitsRead_of_header hlen hh).trans (if_pos hc)
  have hpos := ctrlBits_pos s.cfg
  have h8 := s.cfg.ctrlBits_le
  have hfirst : bitAt s.cfg.timing s.capture 3 = true := isControlFrame_eq_bitAt hlen ▸ hc
  refine ⟨_, exec_decode hb, ?_, ?_, ?_⟩
  · simp only [decodedState, hread, decide_eq_true hpos.ne', Bool.true_and]
    exact hc
  · simp only [decodedState, hread, BitVec.getLsbD_ofNat, testBit_bitSum_top hpos, hfirst, Bool.and_true,
      decide_eq_true_iff]
    omega
  · simp only [decodedState]
    rw [decodeResult_of_control hlen hh hc]
    split_ifs
    · exact .inr (.inl rfl)
    · exact .inl ⟨rfl, rfl⟩
    · exact .inr (.inr rfl)

/-! ### Independence of DECODE and SEND -/

/-- Settles O47: the closed form names the capture and the configuration only, and a SEND is an emission. -/
theorem decodeAndSendAreIndependent : Obligations.DecodeAndSendAreIndependent := by
  refine ⟨fun s s' hb hb' hcfg hcapture => ⟨_, _, exec_decode hb, exec_decode hb', ?_⟩, fun s c hb hc => ?_⟩
  · simp only [decodedState, hcfg, hcapture, and_self]
  · obtain ⟨ps, hsend⟩ := exec_ofCommand_send hc s
    obtain ⟨t, ht, hframe, -⟩ := sendCommand_emits ps hb
    exact ⟨t, hsend.trans ht, hframe.keeps State.res, hframe.keeps State.phase, hframe.keeps State.cursor,
      hframe.keeps State.acc, hframe.keeps State.nbits, hframe.keeps State.isctrl, hframe.keeps State.capture⟩

end Sys2Proof.Machine
end

section
/-! PROOFS. How many rules a DECODE takes (42_decoder.md R105): the run is over with the last rule of its path and not
before. -/

namespace Sys2Proof.Machine

variable {s t : State}

/-! ### The count of rules -/

theorem decodeRun_of_error {f : Fault} (hp : s.phase ≠ .idle) (hr : decodeRule s = .error f) (n : Nat) :
    decodeRun (n + 1) s = .error f := by
  rw [decodeRun]
  split
  · contradiction
  · rw [hr]

/-- A run in two parts. -/
theorem decodeRun_add (m n : Nat) (s : State) : decodeRun (m + n) s = (decodeRun m s).bind (decodeRun n) := by
  induction m generalizing s with
  | zero => rw [Nat.zero_add]; rfl
  | succ m ih =>
    by_cases hp : s.phase = .idle
    · rw [decodeRun_idle hp, decodeRun_idle hp]
      exact (decodeRun_idle hp).symm
    · rw [Nat.succ_add]
      cases hr : decodeRule s with
      | ok u => rw [decodeRun_succ hp hr, decodeRun_succ hp hr, ih]
      | error f => rw [decodeRun_of_error hp hr, decodeRun_of_error hp hr]; rfl

/-- A run that is not over after `n` rules was not over before. -/
theorem decodeRun_not_idle_of_le {k n : Nat} (hk : k ≤ n) (h : decodeRun n s = .ok t) (ht : t.phase ≠ .idle) :
    ∃ u, decodeRun k s = .ok u ∧ u.phase ≠ .idle := by
  rw [← Nat.add_sub_of_le hk, decodeRun_add] at h
  cases hu : decodeRun k s with
  | ok u =>
    rw [hu] at h
    refine ⟨u, rfl, fun hidle => ht ?_⟩
    cases h.symm.trans (decodeRun_idle hidle)
    exact hidle
  | error f => rw [hu] at h; cases h

/-- BUSY is 1 as long as a DECODE is not over (10_state.md R29). -/
theorem busy_of_decodeRun {n : Nat} (h : decodeRun n (beginDecode s) = .ok t) (ht : t.phase ≠ .idle) : t.busy = true := by
  have hfree : t.busy = false → t.phase = .idle :=
    decodeRun_keeps (fun u => u.busy = false → u.phase = .idle) (fun _ _ => decodeRule_idle_when_free)
      (fun h => by cases h) h
  by_contra hb
  exact ht (hfree (Bool.eq_false_iff.mpr hb))

/-- A DECODE of `s` is over with the rule after its first `n`. -/
def LastRuleAfter (n : Nat) (s : State) : Prop :=
  ∃ u v, decodeRun n (beginDecode s) = .ok u ∧ u.phase ≠ .idle ∧
    decodeRule u = .ok v ∧ v.phase = .idle ∧ v.busy = false

theorem lastRuleAfter_of_short (hlen : s.capture.length < s.cfg.minCaptureLen) : LastRuleAfter 1 s :=
  ⟨clearedAt .lengthCheck s, _, (decodeRun_succ (by simp) (decodeRule_beginDecode s)).trans (decodeRun_zero _), nofun,
    (decodeRule_lengthCheck rfl).trans (congrArg Except.ok (if_pos hlen)), rfl, rfl⟩

theorem lastRuleAfter_of_no_header (hlen : s.cfg.minCaptureLen ≤ s.capture.length)
    (hh : hasHeader s.cfg.timing s.capture = false) : LastRuleAfter 2 s := by
  have hpair : 2 < (clearedAt .headerCheck s).capture.length := by
    have := s.cfg.minCaptureLen_le
    exact show 2 < s.capture.length by omega
  have hrule := (decodeRule_headerCheck rfl).trans (headerCheckRule_eq hpair)
  rw [if_neg (by simp [clearedAt, hh])] at hrule
  exact ⟨_, _, (decodeRun_to_headerCheck hlen 0).trans (decodeRun_zero _), nofun, hrule, rfl, rfl⟩

/-- CTRL_CHECK after the reads of the control path, in terms of the byte received (42_decoder.md R97, R101). -/
theorem decodeRule_atPayload (s : State) : decodeRule (atPayload s) =
    .ok (if receivedPrefix s.cfg s.capture ≠ s.cfg.ctrlPrefix.toNat then raiseFail .prefixMismatch (atPayload s)
      else if receivedType s.cfg s.capture ∉ [1, 2, 3, 4] then raiseFail .typeInvalid (atPayload s)
      else recordControl (ctrlPayload s.cfg.toParams (atPayload s).acc) (atPayload s)) := by
  have hprefix : (atPayload s).acc.toNat % 2 ^ s.cfg.ctrlBits / 2 ^ s.cfg.ctrlTypeBits =
      receivedPrefix s.cfg s.capture := by
    rw [atPayload_acc_toNat, Nat.mod_eq_of_lt (receivedByte_lt _ _), receivedPrefix]
  have htype : (atPayload s).acc.toNat % 2 ^ s.cfg.ctrlTypeBits = receivedType s.cfg s.capture := by
    rw [atPayload_acc_toNat, receivedType]
  rw [← hprefix, ← htype]
  exact (decodeRule_ctrlCheck rfl).trans (ctrlCheckRule_eq _)

section ControlPath

variable (hlen : s.cfg.minCaptureLen ≤ s.capture.length) (hh : hasHeader s.cfg.timing s.capture = true)
  (hc : isControlFrame s.cfg.timing s.capture = true)
include hlen hh hc

/-- A control payload that CTRL_CHECK refuses ends the DECODE there. -/
theorem lastRuleAfter_of_raiseFail {r : Failure} (hr : decodeRule (atPayload s) = .ok (raiseFail r (atPayload s))) :
    LastRuleAfter (4 + s.cfg.ctrlBits + 1) s := by
  have hrun := decodeRun_to_ctrlCheck hlen hh hc 0
  rw [show s.cfg.ctrlBits + (1 + 0) + 4 = 4 + s.cfg.ctrlBits + 1 by omega, decodeRun_zero] at hrun
  exact ⟨_, _, hrun, nofun, hr, rfl, rfl⟩

/-- A control code ends it a rule later, at DONE. -/
theorem lastRuleAfter_of_recordControl {b : ControlByte}
    (hr : decodeRule (atPayload s) = .ok (recordControl b (atPayload s))) :
    LastRuleAfter (4 + s.cfg.ctrlBits + 1 + 1) s := by
  have hrun := decodeRun_to_ctrlCheck hlen hh hc 1
  rw [show s.cfg.ctrlBits + (1 + 1) + 4 = 4 + s.cfg.ctrlBits + 1 + 1 by omega, decodeRun_succ (by simp [atPayload]) hr,
    decodeRun_zero] at hrun
  exact ⟨_, _, hrun, nofun, decodeRule_done rfl, rfl, rfl⟩

end ControlPath

/-- DATA_READ reads on while it has not read the bits of the closed form (42_decoder.md R98, R102). -/
theorem dataRead_more_iff {k : Nat} (hcursor : s.cursor = 3 + 2 * k) (hn : s.nbits = BitVec.ofNat 7 k)
    (hk : k ≤ dataCount s.cfg s.capture) :
    (s.cursor + 1 < s.capture.length ∧ s.nbits.toNat < s.cfg.maxDataBits) ↔ k < dataCount s.cfg s.capture := by
  have hmax := s.cfg.maxDataBits_le
  have hvalue := s.cfg.wValue_le
  have hnbits : s.nbits.toNat = k := by rw [hn, BitVec.toNat_ofNat]; rw [dataCount] at hk; omega
  rw [dataCount]
  omega

/-- The reads of DATA_READ, from `k` bits read, and the rule that records them. -/
theorem decodeRun_dataRead_to_done (k j : Nat) (hp : s.phase = .dataRead) (hcursor : s.cursor = 3 + 2 * k)
    (hn : s.nbits = BitVec.ofNat 7 k) (hj : k + j = dataCount s.cfg s.capture) :
    ∃ u, decodeRun (j + 1) s = .ok u ∧ u.phase = .done := by
  have hmore := dataRead_more_iff hcursor hn (by omega)
  have hrule := decodeRule_dataRead hp
  induction j generalizing s k with
  | zero =>
    rw [if_neg (by omega)] at hrule
    exact ⟨_, (decodeRun_succ (by simp [hp]) hrule).trans (decodeRun_zero _), rfl⟩
  | succ j ih =>
    rw [if_pos (by omega)] at hrule
    rw [decodeRun_succ (by simp [hp]) hrule]
    have hcursor' : s.cursor + 2 = 3 + 2 * (k + 1) := by omega
    have hn' : s.nbits + 1 = BitVec.ofNat 7 (k + 1) := by rw [hn, BitVec.ofNat_add]; rfl
    have hj' : k + 1 + j = dataCount s.cfg s.capture := by omega
    exact ih (s := shiftIn _ _ s) (k + 1) hp hcursor' hn' hj' (dataRead_more_iff hcursor' hn' (Nat.le.intro hj'))
      (decodeRule_dataRead hp)

theorem lastRuleAfter_of_data (hlen : s.cfg.minCaptureLen ≤ s.capture.length)
    (hh : hasHeader s.cfg.timing s.capture = true) (hc : isControlFrame s.cfg.timing s.capture = false) :
    LastRuleAfter (4 + dataCount s.cfg s.capture + 1) s := by
  obtain ⟨u, hu, hdone⟩ := decodeRun_dataRead_to_done (s := afterDiscriminate s) 0 (dataCount s.cfg s.capture)
    (by simp [afterDiscriminate, hc]) rfl rfl (Nat.zero_add _)
  have hrun := (decodeRun_to_reads hlen hh (dataCount s.cfg s.capture + 1)).trans hu
  rw [show dataCount s.cfg s.capture + 1 + 4 = 4 + dataCount s.cfg s.capture + 1 by omega] at hrun
  exact ⟨u, _, hrun, by simp [hdone], decodeRule_done hdone, rfl, rfl⟩

/-- The steps counted by 42_decoder.md R105 are those up to the last rule, path by path. -/
theorem lastRuleAfter_decodeSteps (s : State) : ∃ n, decodeSteps s.cfg s.capture = n + 1 ∧ LastRuleAfter n s := by
  rcases Nat.lt_or_ge s.capture.length s.cfg.minCaptureLen with hlen | hlen
  · exact ⟨1, by rw [decodeSteps, decodeResult_of_short hlen], lastRuleAfter_of_short hlen⟩
  cases hh : hasHeader s.cfg.timing s.capture with
  | false => exact ⟨2, by rw [decodeSteps, decodeResult_of_no_header hlen hh], lastRuleAfter_of_no_header hlen hh⟩
  | true =>
    cases hc : isControlFrame s.cfg.timing s.capture with
    | false =>
      exact ⟨_, by rw [decodeSteps, decodeResult_of_data hlen hh hc], lastRuleAfter_of_data hlen hh hc⟩
    | true =>
      have hrule := decodeRule_atPayload s
      have hresult := decodeResult_of_control hlen hh hc
      split_ifs at hrule hresult
      · exact ⟨_, by rw [decodeSteps, hresult], lastRuleAfter_of_raiseFail hlen hh hc hrule⟩
      · exact ⟨_, by rw [decodeSteps, hresult], lastRuleAfter_of_recordControl hlen hh hc hrule⟩
      · exact ⟨_, by rw [decodeSteps, hresult], lastRuleAfter_of_raiseFail hlen hh hc hrule⟩

theorem decodeSteps_le (c : Config) (xs : List Micros) : decodeSteps c xs ≤ 70 := by
  have := c.ctrlBits_le
  have := dataCount_le c xs
  rw [decodeSteps, decodeResult]
  split_ifs <;> dsimp only <;> omega

/-- Settles O41: the run is not over before its last rule, and over with it. -/
theorem decodeTakesTheCountedSteps : Obligations.DecodeTakesTheCountedSteps := by
  intro s _
  obtain ⟨n, hsteps, u, v, hu, hbusy, hrule, hidle, hfree⟩ := lastRuleAfter_decodeSteps s
  refine ⟨decodeSteps_le _ _, fun k hk => ?_, v, ?_, hidle, hfree⟩
  · obtain ⟨t, ht, hphase⟩ := decodeRun_not_idle_of_le (show k ≤ n by omega) hu hbusy
    exact ⟨t, ht, hphase, busy_of_decodeRun ht hphase⟩
  · rw [hsteps, decodeRun_add, hu]
    exact (decodeRun_succ hbusy hrule).trans (decodeRun_zero _)

end Sys2Proof.Machine
end

section
/-! PROOFS. DECODE of a reference capture (20_memory.md R40): the bits it reads are the payload's, so that a frame
comes back as it was sent, jittered within the tolerance or with more recorded after it (42_decoder.md R103, R106, R107, R109). -/

namespace Sys2Proof.Machine

variable {s : State} {c : Config} {t : Timing} {xs ys : List Micros} {payload : List Bool} {g : Micros}

/-! ### Pairs of a capture -/

theorem bitAt_of_pair {i : Nat} {m sp : Micros} (hm : xs[i]? = some m) (hsp : xs[i + 1]? = some sp) :
    bitAt t xs i = isOne t m sp := by
  obtain ⟨hlt, -⟩ := List.getElem?_eq_some_iff.mp hsp
  rw [bitAt_eq_isOne hlt, List.getD_eq_getElem?_getD, List.getD_eq_getElem?_getD, hm, hsp]
  rfl

/-- A complete pair is read alike whatever follows it. -/
theorem bitAt_append {i : Nat} (h : i + 1 < xs.length) : bitAt t (xs ++ ys) i = bitAt t xs i := by
  rw [bitAt_eq_isOne h, bitAt_eq_isOne (by rw [List.length_append]; omega), List.getD_append _ _ _ _ (by omega),
    List.getD_append _ _ _ _ h]

theorem hasHeader_append (h : 2 < xs.length) : hasHeader t (xs ++ ys) = hasHeader t xs := by
  rw [hasHeader, List.getD_append _ _ _ _ (by omega), List.getD_append _ _ _ _ h, hasHeader]

/-- The sum is a function of the bits it reads. -/
theorem bitSum_congr {n : Nat} (h : ∀ k < n, bitAt t ys (3 + 2 * k) = bitAt t xs (3 + 2 * k)) :
    bitSum t ys n = bitSum t xs n := by
  refine Nat.eq_of_testBit_eq fun i => ?_
  rw [testBit_bitSum, testBit_bitSum]
  by_cases hi : i < n
  · rw [h _ (by omega)]
  · rw [decide_eq_false hi, Bool.false_and, Bool.false_and]

/-! ### The bits of a frame -/

/-- Under the normative `Timing` a pair within the tolerance of a bit's symbol is read as that bit: the windows of the two
bits are apart (40_timing_codec.md R80). -/
theorem isOne_of_matches {b : Bool} {m sp : Micros} (hm : withinTolerance Timing.normative m (markOf .normative b) = true)
    (hsp : withinTolerance Timing.normative sp (spaceOf .normative b) = true) : isOne Timing.normative m sp = b := by
  cases b with
  | true => exact Bool.and_eq_true_iff.mpr ⟨hm, hsp⟩
  | false =>
    obtain ⟨hapart, -⟩ := noPairIsClassifiedTwoWays
    exact Bool.eq_false_iff.mpr fun hone => (hapart m sp).1 ⟨hone, Bool.and_eq_true_iff.mpr ⟨hm, hsp⟩⟩

theorem length_captureOf_framePulses (hend : t.endSpace = 0) (payload : List Bool) (g : Micros) :
    (captureOf (framePulses t payload) g).length = 2 * payload.length + 4 := by
  obtain ⟨hlength, -⟩ := referenceCaptureLayout t payload g hend
  exact hlength

theorem hasHeader_framePulses (hend : t.endSpace = 0) (payload : List Bool) (g : Micros) :
    hasHeader t (captureOf (framePulses t payload) g) = true := by
  simp [hasHeader, isHeader, captureOf_framePulses hend]

/-- The pair of the `k`-th bit in the reference capture (20_memory.md R36). -/
theorem pair_framePulses (hend : t.endSpace = 0) (g : Micros) {k : Nat} (hk : k < payload.length) :
    (captureOf (framePulses t payload) g)[3 + 2 * k]? = some (markOf t payload[k]) ∧
      (captureOf (framePulses t payload) g)[3 + 2 * k + 1]? = some (spaceOf t payload[k]) := by
  obtain ⟨-, -, -, -, hpairs, -⟩ := referenceCaptureLayout t payload g hend
  obtain ⟨hmark, hspace⟩ := hpairs k payload[k] (List.getElem?_eq_getElem hk)
  rw [show 4 + 2 * k = 3 + 2 * k + 1 by omega] at hspace
  exact ⟨hmark, hspace⟩

/-- The bits of a frame come back from its reference capture; past them 0 is read (42_decoder.md R98). -/
theorem bitAt_framePulses (payload : List Bool) (g : Micros) (k : Nat) :
    bitAt Timing.normative (captureOf (framePulses .normative payload) g) (3 + 2 * k) = payload.getD k false := by
  rcases Nat.lt_or_ge k payload.length with hk | hk
  · obtain ⟨hmark, hspace⟩ := pair_framePulses (t := .normative) rfl g hk
    rw [bitAt_of_pair hmark hspace, isOne_of_matches (withinTolerance_self _ _) (withinTolerance_self _ _),
      List.getD_eq_getElem _ _ hk]
  · rw [bitAt_of_exhausted (by rw [length_captureOf_framePulses rfl]; omega), List.getD_eq_default _ _ hk]

theorem getD_msbFirst (bit : Nat → Bool) (n k : Nat) :
    (msbFirst bit n).getD k false = (decide (k < n) && bit (n - 1 - k)) := by
  rw [msbFirst_eq_map, List.getD_eq_getElem?_getD, List.getElem?_map]
  by_cases hk : k < n
  · simp [hk]
  · simp [hk]

/-- The reference capture of the frame of the low `n` bits of `v`. -/
def bitsCapture {w : Nat} (v : BitVec w) (n : Nat) (g : Micros) : List Micros :=
  captureOf (framePulses .normative (msbFirst v.getLsbD n)) g

section BitsCapture

variable {w : Nat} (v : BitVec w) (n : Nat)

theorem length_bitsCapture : (bitsCapture v n g).length = 2 * n + 4 := by
  rw [bitsCapture, length_captureOf_framePulses rfl, length_msbFirst]

theorem hasHeader_bitsCapture : hasHeader .normative (bitsCapture v n g) = true := hasHeader_framePulses rfl _ _

theorem bitAt_bitsCapture (k : Nat) :
    bitAt .normative (bitsCapture v n g) (3 + 2 * k) = (decide (k < n) && v.getLsbD (n - 1 - k)) := by
  rw [bitsCapture, bitAt_framePulses, getD_msbFirst]

theorem bitAt_bitsCapture_first {n : Nat} (hn : 1 ≤ n) :
    bitAt .normative (bitsCapture v n g) 3 = v.getLsbD (n - 1) := by
  rw [show 3 = 3 + 2 * 0 from rfl, bitAt_bitsCapture, decide_eq_true (show 0 < n from hn), Bool.true_and, Nat.sub_zero]

/-- As many reads as bits sent, or more, give the bits sent, padded with 0 on the right (42_decoder.md R109). -/
theorem bitSum_bitsCapture_of_le {m : Nat} (hm : n ≤ m) :
    bitSum .normative (bitsCapture v n g) m = (v.toNat % 2 ^ n) <<< (m - n) := by
  refine Nat.eq_of_testBit_eq fun i => ?_
  rw [testBit_bitSum, bitAt_bitsCapture, Nat.testBit_shiftLeft, Nat.testBit_mod_two_pow, BitVec.getLsbD]
  rcases Nat.lt_or_ge i m with hread | habove
  · rcases Nat.lt_or_ge i (m - n) with hpad | hsent
    · simp [show ¬ m - 1 - i < n by omega, show ¬ m - n ≤ i by omega]
    · simp [show n - 1 - (m - 1 - i) = i - (m - n) by omega, hread, hsent, show m - 1 - i < n by omega,
        show i - (m - n) < n by omega]
  · simp [show ¬ i < m by omega, show ¬ i - (m - n) < n by omega]

/-- Fewer reads than bits sent give the first of them (42_decoder.md R109). -/
theorem bitSum_bitsCapture_of_ge {m : Nat} (hm : m ≤ n) :
    bitSum .normative (bitsCapture v n g) m = (v.toNat >>> (n - m)) % 2 ^ m := by
  refine Nat.eq_of_testBit_eq fun i => ?_
  rw [testBit_bitSum, bitAt_bitsCapture, Nat.testBit_mod_two_pow, Nat.testBit_shiftRight, BitVec.getLsbD]
  by_cases hi : i < m
  · rw [decide_eq_true (show m - 1 - i < n by omega), Bool.true_and, show n - 1 - (m - 1 - i) = n - m + i by omega]
  · rw [decide_eq_false hi, Bool.false_and, Bool.false_and]

/-- Exactly as many reads as bits sent give the number that was sent (42_decoder.md R106). -/
theorem bitSum_bitsCapture : bitSum .normative (bitsCapture v n g) n = v.toNat % 2 ^ n := by
  rw [bitSum_bitsCapture_of_le v n le_rfl, Nat.sub_self, Nat.shiftLeft_zero]

end BitsCapture

theorem captureOf_controlPulses (htiming : c.timing = .normative) (code : ControlCode) (g : Micros) :
    captureOf (controlPulses c code) g = bitsCapture (ctrlByte c.toParams code) c.ctrlBits g := by
  rw [controlPulses, htiming, bitsCapture]

theorem captureOf_dataPulses (htiming : c.timing = .normative) {n : BitVec 8} (hn : n.toNat ≤ c.maxDataBits)
    (v : DataValue) (g : Micros) : captureOf (dataPulses c v n) g = bitsCapture v n.toNat g := by
  rw [dataPulses_of_le hn, htiming, bitsCapture]

/-! ### The control path -/

/-- A DECODE that goes down the control path ends as the reception of the byte it reads (log 9). -/
theorem exec_decode_of_control (hlen : s.cfg.minCaptureLen ≤ s.capture.length)
    (hh : hasHeader s.cfg.timing s.capture = true) (hc : isControlFrame s.cfg.timing s.capture = true) :
    exec .decode s = receiveControl (BitVec.ofNat 8 (receivedByte s.cfg s.capture)) s := by
  have h8 := s.cfg.ctrlBits_le
  have hfuel : decodeFuel = s.cfg.ctrlBits + (1 + ((63 - s.cfg.ctrlBits) + 2)) + 4 := by
    rw [decodeFuel]
    omega
  show execDecode s = _
  rw [execDecode, receiveControl, hfuel, decodeRun_to_ctrlCheck hlen hh hc]
  show _ = if s.busy then _ else ofRun (decodeRun (0 + 2) (atPayload s))
  rw [decodeRun_ctrlCheck rfl, decodeRun_ctrlCheck rfl]

/-- A DECODE of the frame of a control code ends as the reception of the code's byte. -/
theorem exec_decode_controlFrame {code : ControlCode} (htiming : s.cfg.timing = .normative)
    (hlen : s.cfg.minCaptureLen ≤ 2 * s.cfg.ctrlBits + 4) (hcap : s.capture = captureOf (controlPulses s.cfg code) g) :
    exec .decode s = receiveControl (ctrlByte s.cfg.toParams code) s := by
  rw [captureOf_controlPulses htiming] at hcap
  have hexamined : s.cfg.minCaptureLen ≤ s.capture.length := by rw [hcap, length_bitsCapture]; exact hlen
  have hbyte : receivedByte s.cfg s.capture = (ctrlByte s.cfg.toParams code).toNat := by
    rw [receivedByte, htiming, hcap, bitSum_bitsCapture, Nat.mod_eq_of_lt (ctrlByte_lt _ _)]
  have hframe : isControlFrame s.cfg.timing s.capture = true := by
    rw [isControlFrame_eq_bitAt hexamined, htiming, hcap, bitAt_bitsCapture_first _ (ctrlBits_pos _), ctrlByte_top]
  rw [exec_decode_of_control hexamined (by rw [htiming, hcap, hasHeader_bitsCapture]) hframe, hbyte,
    BitVec.ofNat_toNat, BitVec.setWidth_eq]

/-- Settles O33: both are the reception of the code's byte, which does not read the capture. -/
theorem controlByteIsTheDecodeOfItsFrame : Obligations.ControlByteIsTheDecodeOfItsFrame := by
  intro code s g hb htiming hlen
  refine ⟨_, (exec_ofControlCode code s).trans (receiveControl_ctrlByte code hb), ?_⟩
  exact (exec_decode_controlFrame (s := { s with capture := captureOf (controlPulses s.cfg code) g }) htiming hlen
    rfl).trans (receiveControl_ctrlByte code hb)

/-! ### The round trips -/

/-- A DECODE of the frame of a data value whose first bit is 0 reads the bits sent (42_decoder.md R106, case 2). -/
theorem decodeResult_bitsCapture_of_zero (htiming : c.timing = .normative) {v : DataValue} {n : Nat} (hpos : 1 ≤ n)
    (hn : n ≤ c.maxDataBits) (hlen : c.minCaptureLen ≤ 2 * n + 4) (hzero : v.getLsbD (n - 1) = false) :
    decodeResult c (bitsCapture v n g) = .data n (v.toNat % 2 ^ n) := by
  have hexamined : c.minCaptureLen ≤ (bitsCapture v n g).length := by rw [length_bitsCapture]; exact hlen
  have hcount : dataCount c (bitsCapture v n g) = n := by rw [dataCount, length_bitsCapture]; omega
  rw [decodeResult_of_data hexamined (by rw [htiming, hasHeader_bitsCapture])
    (by rw [isControlFrame_eq_bitAt hexamined, htiming, bitAt_bitsCapture_first _ hpos, hzero]), hcount, htiming,
    bitSum_bitsCapture]

/-- A DECODE of the frame of a data value whose first bit is 1 receives its first bits as a byte (42_decoder.md R109). -/
theorem exec_decode_bitsCapture_of_one (htiming : s.cfg.timing = .normative) {v : DataValue}
    {n : Nat} (hcap : s.capture = bitsCapture v n g) (hpos : 1 ≤ n) (hlen : s.cfg.minCaptureLen ≤ 2 * n + 4)
    (hone : v.getLsbD (n - 1) = true) :
    exec .decode s = receiveControl (BitVec.ofNat 8 (bitSum .normative (bitsCapture v n g) s.cfg.ctrlBits)) s := by
  have hexamined : s.cfg.minCaptureLen ≤ s.capture.length := by rw [hcap, length_bitsCapture]; exact hlen
  rw [exec_decode_of_control hexamined (by rw [htiming, hcap, hasHeader_bitsCapture])
    (by rw [isControlFrame_eq_bitAt hexamined, htiming, hcap, bitAt_bitsCapture_first _ hpos, hone]), receivedByte,
    htiming, hcap]

/-- A byte outside the eight of `0b10100` differs from them in `B[7:3]` (30_encoding.md R60). -/
theorem prefix_ne_of_not_mem (b : ControlByte)
    (h : b ∉ [0xA0#8, 0xA1#8, 0xA2#8, 0xA3#8, 0xA4#8, 0xA5#8, 0xA6#8, 0xA7#8]) : b.extractLsb' 3 5 ≠ 0b10100 := by
  revert b
  decide

section RoundTrips

variable (hb : s.busy = false) (htiming : s.cfg.timing = .normative) (hcounts : s.cfg.CountsOfR7)
include hb htiming hcounts

theorem roundTrip_control (hprefix : s.cfg.ctrlPrefix = 0b10100) {code : ControlCode}
    (hcap : s.capture = captureOf (controlPulses s.cfg code) g) :
    ∃ u, exec .decode s = .next u ∧
      u.res = ⟨1, 1, code.type, 8, 0xA0#64 ||| code.type.setWidth 64, s.cfg.protocolId⟩ := by
  have ⟨_, _, hbits, _, _, hmin⟩ := hcounts
  refine ⟨_, (exec_decode_controlFrame htiming (by omega) hcap).trans (receiveControl_ctrlByte code hb), ?_⟩
  simp only [hbits, ctrlByte_of_countsOfR7 hcounts, hprefix]
  cases code <;> rfl

theorem roundTrip_data_zero {v : DataValue} {n : Nat} (hcap : s.capture = bitsCapture v n g) (hpos : 1 ≤ n)
    (hn : n ≤ 64) (hzero : v.getLsbD (n - 1) = false) :
    ∃ u, exec .decode s = .next u ∧
      u.res = ⟨1, 0, 0, BitVec.ofNat 7 n, BitVec.ofNat 64 (v.toNat % 2 ^ n), s.cfg.protocolId⟩ := by
  obtain ⟨-, hmax, -, -, -, hmin⟩ := hcounts
  refine ⟨_, exec_decode hb, ?_⟩
  rw [decodedState, hcap, decodeResult_bitsCapture_of_zero htiming hpos (by omega) (by omega) hzero]
  rfl

theorem roundTrip_data_one (hprefix : s.cfg.ctrlPrefix = 0b10100) {v : DataValue} {n : Nat}
    (hcap : s.capture = bitsCapture v n g) (hpos : 1 ≤ n) (hone : v.getLsbD (n - 1) = true) {b : ControlByte}
    (hshort : n ≤ 8 → b.toNat = (v.toNat % 2 ^ n) <<< (8 - n))
    (hlong : 8 < n → b.toNat = (v.toNat >>> (n - 8)) % 256) :
    ∃ u, exec .decode s = .next u ∧
      (b ∈ [0xA1#8, 0xA2#8, 0xA3#8, 0xA4#8] →
        u.res = ⟨1, 1, b.extractLsb' 0 3, 8, b.setWidth 64, s.cfg.protocolId⟩) ∧
      (b ∈ [0xA0#8, 0xA5#8, 0xA6#8, 0xA7#8] → u.res = ⟨5, 0, 0, 0, 0, 0⟩) ∧
      (b ∉ [0xA0#8, 0xA1#8, 0xA2#8, 0xA3#8, 0xA4#8, 0xA5#8, 0xA6#8, 0xA7#8] → u.res = ⟨4, 0, 0, 0, 0, 0⟩) := by
  have ⟨_, _, hbits, _, _, hmin⟩ := hcounts
  have hbyte : bitSum .normative (bitsCapture v n g) 8 = b.toNat := by
    rcases Nat.lt_or_ge 8 n with hn | hn
    · rw [bitSum_bitsCapture_of_ge v n hn.le, hlong hn]; rfl
    · rw [bitSum_bitsCapture_of_le v n hn, hshort hn]
  obtain ⟨u, hu, hcode, htype, hother, -⟩ := receivedControlByteOutcome s b hb hcounts hprefix
  refine ⟨u, ?_, hcode, htype, fun h => hother (prefix_ne_of_not_mem b h)⟩
  rw [exec_decode_bitsCapture_of_one htiming hcap hpos (by omega) hone, hbits, hbyte, BitVec.ofNat_toNat,
    BitVec.setWidth_eq]
  exact hu

end RoundTrips

theorem roundTrip_data_empty (hb : s.busy = false) (hcounts : s.cfg.CountsOfR7) {v : DataValue}
    (hcap : s.capture = bitsCapture v 0 g) :
    ∃ u, exec .decode s = .next u ∧ u.res = ⟨2, 0, 0, 0, 0, 0⟩ := by
  obtain ⟨-, -, -, -, -, hmin⟩ := hcounts
  refine ⟨_, exec_decode hb, ?_⟩
  rw [decodedState, decodeResult_of_short (by rw [hcap, length_bitsCapture, hmin]; decide)]
  rfl

/-- Settles O44, case by case of 42_decoder.md R106; the example of R109 is its case 3 with the byte 0xB0. -/
theorem referenceChannelRoundTrips : Obligations.ReferenceChannelRoundTrips := by
  intro s g hb htiming hcounts hprefix
  have ⟨_, hmax, _⟩ := hcounts
  refine ⟨fun code hcap => roundTrip_control hb htiming hcounts hprefix hcap,
    fun v n hcap => ⟨?_, ?_, ?_⟩, fun hcap => ?_⟩
  · intro hpos hn hzero
    rw [captureOf_dataPulses htiming (by omega)] at hcap
    exact roundTrip_data_zero hb htiming hcounts hcap hpos hn hzero
  · intro hpos hn hone b hshort hlong
    rw [captureOf_dataPulses htiming (by omega)] at hcap
    exact roundTrip_data_one hb htiming hcounts hprefix hcap hpos hone hshort hlong
  · intro hn
    rw [captureOf_dataPulses htiming (by omega), hn] at hcap
    exact roundTrip_data_empty hb hcounts hcap
  · rw [captureOf_dataPulses htiming (by rw [hmax]; decide)] at hcap
    obtain ⟨u, hu, -, -, hother⟩ := roundTrip_data_one hb htiming hcounts hprefix (b := 0xB0) hcap (by decide)
      (by decide) (by decide) (by decide)
    exact ⟨u, hu, hother (by decide)⟩

/-! ### Jitter -/

theorem examined_of_lt_bitsRead {k : Nat} (hk : k < bitsRead c xs) : c.minCaptureLen ≤ xs.length := by
  by_contra hshort
  rw [bitsRead_of_short (Nat.lt_of_not_le hshort)] at hk
  cases hk

/-- Both samples of a complete pair among the bits read are read (20_memory.md R37). -/
theorem mem_readIndices_pair {k : Nat} (hk : k < bitsRead c xs) (hin : 3 + 2 * k + 1 < xs.length) :
    3 + 2 * k ∈ readIndices c xs ∧ 3 + 2 * k + 1 ∈ readIndices c xs := by
  simp only [mem_readIndices (examined_of_lt_bitsRead hk)]
  exact ⟨.inr (.inr ⟨k, hk, by omega, .inl rfl⟩), .inr (.inr ⟨k, hk, by omega, .inr (by omega)⟩)⟩

/-- Of a capture too short to be examined only the length is read. -/
theorem readsAs_of_short (hshort : xs.length < c.minCaptureLen) (hlength : ys.length = xs.length) : ReadsAs c xs ys where
  length_eq := hlength
  header_eq hlen := absurd hshort (Nat.not_lt.mpr hlen)
  bit_eq _ hk := absurd hshort (Nat.not_lt.mpr (examined_of_lt_bitsRead hk))

/-- A capture of the same length whose samples match those read of a frame's reference capture reads as it does. -/
theorem readsAs_framePulses (htiming : c.timing = .normative)
    (hlength : ys.length = (captureOf (framePulses .normative payload) g).length)
    (hmatch : ∀ i ∈ readIndices c (captureOf (framePulses .normative payload) g), withinTolerance .normative
      (ys.getD i 0) ((captureOf (framePulses .normative payload) g).getD i 0) = true) :
    ReadsAs c (captureOf (framePulses .normative payload) g) ys where
  length_eq := hlength
  header_eq hlen := by
    have hmark := hmatch 1 ((mem_readIndices hlen).mpr (.inl rfl))
    have hspace := hmatch 2 ((mem_readIndices hlen).mpr (.inr (.inl rfl)))
    rw [captureOf_framePulses rfl] at hmark hspace
    rw [htiming, hasHeader_framePulses rfl]
    exact Bool.and_eq_true_iff.mpr ⟨hmark, hspace⟩
  bit_eq k hk := by
    have hframe := length_captureOf_framePulses (t := .normative) rfl payload g
    rw [htiming, bitAt_framePulses]
    rcases Nat.lt_or_ge k payload.length with hin | hout
    · obtain ⟨hmark, hspace⟩ := pair_framePulses (t := .normative) rfl g hin
      obtain ⟨hmarkRead, hspaceRead⟩ := mem_readIndices_pair hk (by omega)
      have hm := hmatch _ hmarkRead
      have hsp := hmatch _ hspaceRead
      rw [List.getD_eq_getElem?_getD (l := captureOf _ g), hmark] at hm
      rw [List.getD_eq_getElem?_getD (l := captureOf _ g), hspace] at hsp
      rw [bitAt_eq_isOne (by omega), isOne_of_matches hm hsp, List.getD_eq_getElem _ _ hin]
    · rw [bitAt_of_exhausted (by omega), List.getD_eq_default _ _ hout]

/-- Settles O45: the captures of frames, and the capture of no pulses, which is too short to be read. -/
theorem jitterWithinToleranceDecodesTheSame : Obligations.JitterWithinToleranceDecodesTheSame := by
  intro s s' ps g hb hb' hcfg htiming hps hcap hlength hmatch
  refine ⟨_, _, exec_decode hb, exec_decode hb', ?_⟩
  show resultRegs s'.cfg (decodeResult s'.cfg s'.capture) = resultRegs s.cfg (decodeResult s.cfg s.capture)
  have hreads : ReadsAs s.cfg s.capture s'.capture := by
    by_cases hne : ps = []
    · subst hne
      exact readsAs_of_short (hcap ▸ Nat.lt_of_lt_of_le (by decide : 1 < 5) s.cfg.minCaptureLen_le) hlength
    · obtain ⟨payload, rfl⟩ := eq_framePulses_of_sent hne hps
      rw [htiming] at hcap hmatch
      rw [hcap] at hlength hmatch ⊢
      exact readsAs_framePulses htiming hlength hmatch
  rw [hcfg, hreads.decodeResult_eq]

/-! ### Samples after the payload -/

/-- What follows a complete control payload is not read (42_decoder.md R103). -/
theorem decodeResult_append_of_control (hpayload : 3 + 2 * c.ctrlBits ≤ xs.length) (hlen : c.minCaptureLen ≤ xs.length)
    (hc : isControlFrame c.timing xs = true) : decodeResult c (xs ++ ys) = decodeResult c xs := by
  have hmin := c.minCaptureLen_le
  have hlen' : c.minCaptureLen ≤ (xs ++ ys).length := by rw [List.length_append]; omega
  have hheader : hasHeader c.timing (xs ++ ys) = hasHeader c.timing xs := hasHeader_append (by omega)
  have hframe : isControlFrame c.timing (xs ++ ys) = true := by
    rw [isControlFrame_eq_bitAt hlen', bitAt_append (by omega), ← isControlFrame_eq_bitAt hlen, hc]
  have hbyte : receivedByte c (xs ++ ys) = receivedByte c xs := bitSum_congr fun k hk => bitAt_append (by omega)
  cases hh : hasHeader c.timing xs with
  | false => rw [decodeResult_of_no_header hlen hh, decodeResult_of_no_header hlen' (hheader.trans hh)]
  | true =>
    rw [decodeResult_of_control hlen hh hc, decodeResult_of_control hlen' (hheader.trans hh) hframe]
    have hprefix : receivedPrefix c (xs ++ ys) = receivedPrefix c xs := congrArg (· / 2 ^ c.ctrlTypeBits) hbyte
    have htype : receivedType c (xs ++ ys) = receivedType c xs := congrArg (· % 2 ^ c.ctrlTypeBits) hbyte
    rw [hprefix, htype, hbyte]

/-- A recorded idle space is a pair with the end mark, whose mark is a bit's (42_decoder.md R103). -/
theorem bitAt_bitsCapture_append_idle {w : Nat} (v : BitVec w) (n : Nat) (idle : Micros) :
    bitAt .normative (bitsCapture v n g ++ [idle]) (3 + 2 * n) =
      withinTolerance .normative idle Timing.normative.oneSpace := by
  obtain ⟨-, -, -, -, -, hend⟩ := referenceCaptureLayout .normative (msbFirst v.getLsbD n) g rfl
  have hlength := length_bitsCapture (g := g) v n
  rw [length_msbFirst, Nat.add_comm] at hend
  change (bitsCapture v n g)[3 + 2 * n]? = _ at hend
  rw [bitAt_of_pair ((List.getElem?_append_left (by omega)).trans hend)
    (by rw [show 3 + 2 * n + 1 = (bitsCapture v n g).length by omega, List.getElem?_concat_length]), isOne]
  exact Bool.true_and _

/-- A recorded idle space is one more bit of a data frame (42_decoder.md R103). -/
theorem decodeResult_bitsCapture_append_idle (htiming : c.timing = .normative) {v : DataValue} {n : Nat} (hpos : 1 ≤ n)
    (hn : n < c.maxDataBits) (hlen : c.minCaptureLen ≤ 2 * n + 5) (hzero : v.getLsbD (n - 1) = false) (idle : Micros) :
    decodeResult c (bitsCapture v n g ++ [idle]) = .data (n + 1)
      (2 * (v.toNat % 2 ^ n) + (withinTolerance .normative idle Timing.normative.oneSpace).toNat) := by
  have hsent := length_bitsCapture (g := g) v n
  have hlength : (bitsCapture v n g ++ [idle]).length = 2 * n + 5 := by
    rw [List.length_append, hsent, List.length_singleton]
  have hheader : hasHeader c.timing (bitsCapture v n g ++ [idle]) = true := by
    rw [htiming, hasHeader_append (by omega), hasHeader_bitsCapture]
  have hframe : isControlFrame c.timing (bitsCapture v n g ++ [idle]) = false := by
    rw [isControlFrame_eq_bitAt (by omega), htiming, bitAt_append (by omega), bitAt_bitsCapture_first v hpos, hzero]
  have hcount : dataCount c (bitsCapture v n g ++ [idle]) = n + 1 := by rw [dataCount]; omega
  have hbits : bitSum .normative (bitsCapture v n g ++ [idle]) n = v.toNat % 2 ^ n :=
    (bitSum_congr fun k hk => bitAt_append (by omega)).trans (bitSum_bitsCapture v n)
  rw [decodeResult_of_data (by omega) hheader hframe, hcount, htiming, bitSum_succ, hbits, bitAt_bitsCapture_append_idle]

/-- Settles O48: the control path reads no more than its bits, the data path every complete pair. -/
theorem samplesAfterThePayload : Obligations.SamplesAfterThePayload := by
  refine ⟨fun s xs ys hb hpayload hlen hc => ⟨_, _, exec_decode hb, exec_decode hb, ?_⟩, ?_⟩
  · exact congrArg (resultRegs s.cfg) (decodeResult_append_of_control hpayload hlen hc)
  · intro s v n g idle hb htiming hpos hn hzero hcap hlen
    have hmax := s.cfg.maxDataBits_le
    have hvalue := s.cfg.wValue_le
    rw [captureOf_dataPulses htiming hn.le] at hcap
    rw [hcap, List.length_append, length_bitsCapture, List.length_singleton] at hlen
    have hsum : ∀ b : Bool, 2 * (v.toNat % 2 ^ n.toNat) + b.toNat < 2 ^ 64 := fun b => by
      have hmod := Nat.mod_lt v.toNat (Nat.two_pow_pos n.toNat)
      have hpow : 2 ^ n.toNat ≤ 2 ^ 63 := Nat.pow_le_pow_right (by decide) (by omega)
      have := Bool.toNat_le b
      omega
    refine ⟨_, exec_decode hb, ?_⟩
    rw [decodedState, hcap, decodeResult_bitsCapture_append_idle htiming hpos hn hlen hzero]
    refine ⟨rfl, rfl, ?_, ?_⟩
    · show (BitVec.ofNat 7 (n.toNat + 1)).toNat = _
      rw [BitVec.toNat_ofNat]
      omega
    · show (BitVec.ofNat 64 _).toNat = _
      rw [BitVec.toNat_ofNat, Nat.mod_eq_of_lt (hsum _), Bool.toNat, Bool.cond_eq_ite]

end Sys2Proof.Machine
end

section
/-! PROOFS. What a DECODE reports (60_exceptions.md R114, R117): the status tells the outcomes of the closed form apart, and
the closed form tries the failures in order. Then the idle core (R128). -/

namespace Sys2Proof.Machine

variable {s : State} {c : Config} {xs : List Micros}

/-! ### The status of an outcome -/

theorem Failure.code_injective : Function.Injective Failure.code := by
  intro f g h
  cases f <;> cases g <;> simp [Failure.code] at h ⊢

theorem Failure.code_ne_statusOk (f : Failure) : f.code ≠ statusOk := by cases f <;> decide

/-- A failure's code is recorded by that failure only (60_exceptions.md R111). -/
theorem resultRegs_status_eq_code_iff (c : Config) (r : DecodeResult) (f : Failure) :
    (resultRegs c r).status = f.code ↔ r = .failed f := by
  cases r with
  | failed g => rw [DecodeResult.failed.injEq]; exact Failure.code_injective.eq_iff
  | control ty b => exact iff_of_false f.code_ne_statusOk.symm nofun
  | data n v => exact iff_of_false f.code_ne_statusOk.symm nofun

/-- OK, or one failure code with every other result register 0 (60_exceptions.md R114, R115). -/
theorem resultRegs_ok_or_failure (c : Config) (r : DecodeResult) :
    (resultRegs c r).status = 1 ∨ resultRegs c r = ⟨2, 0, 0, 0, 0, 0⟩ ∨ resultRegs c r = ⟨3, 0, 0, 0, 0, 0⟩ ∨
      resultRegs c r = ⟨4, 0, 0, 0, 0, 0⟩ ∨ resultRegs c r = ⟨5, 0, 0, 0, 0, 0⟩ := by
  cases r with
  | failed f =>
    right
    cases f with
    | bufferTooShort => exact .inl rfl
    | headerMismatch => exact .inr (.inl rfl)
    | prefixMismatch => exact .inr (.inr (.inl rfl))
    | typeInvalid => exact .inr (.inr (.inr rfl))
  | control ty b => exact .inl rfl
  | data n v => exact .inl rfl

/-! ### The order of the failures -/

theorem decodeResult_eq_bufferTooShort_iff :
    decodeResult c xs = .failed .bufferTooShort ↔ xs.length < c.minCaptureLen := by
  rw [decodeResult]
  split_ifs with hlen <;> simp [hlen]

theorem decodeResult_eq_headerMismatch_iff (hlen : c.minCaptureLen ≤ xs.length) :
    decodeResult c xs = .failed .headerMismatch ↔ hasHeader c.timing xs = false := by
  rw [decodeResult, if_neg (Nat.not_lt.mpr hlen)]
  split_ifs with hh <;> simp [hh]

/-- Settles O42: the DECODE ends in the closed form, which tries the failures in the order of R117. -/
theorem theFirstFailureInOrderIsReported : Obligations.TheFirstFailureInOrderIsReported := by
  intro s hb
  refine ⟨_, exec_decode hb, rfl, rfl, rfl, rfl, rfl, resultRegs_ok_or_failure s.cfg _, ?_, ?_, ?_, ?_, ?_⟩
  · exact fun ⟨_, _, _, _, _, hmin⟩ => hmin
  · exact (resultRegs_status_eq_code_iff s.cfg _ .bufferTooShort).trans decodeResult_eq_bufferTooShort_iff |>.symm
  · exact fun hlen =>
      (resultRegs_status_eq_code_iff s.cfg _ .headerMismatch).trans (decodeResult_eq_headerMismatch_iff hlen) |>.symm
  · intro hlen hh hc
    rw [decodedState, decodeResult_of_control hlen hh hc]
    refine ⟨fun hprefix => ?_, fun hprefix => ⟨fun htype => ?_, fun htype => ?_⟩⟩
    · rw [if_pos hprefix]; rfl
    · rw [if_neg (not_not.mpr hprefix), if_pos htype]; rfl
    · rw [if_neg (not_not.mpr hprefix), if_neg (not_not.mpr htype)]; rfl
  · intro hlen hh hc
    rw [decodedState, decodeResult_of_data hlen hh hc]
    rfl

/-! ### The idle core -/

/-- Settles O55: no input is waiting, and the trace of a sound state with no SEND in progress does not end with a mark. -/
theorem idleCoreKeepsItsStateWithTheEmitterOff : Obligations.IdleCoreKeepsItsStateWithTheEmitterOff := by
  intro s hs hb
  refine ⟨step_quiescent hb, fun hopen => ?_⟩
  obtain ⟨-, hsend⟩ := hs.idle_when_free hb
  rw [← Bool.not_eq_true, emitterOn_iff hopen]
  rintro ⟨d, hmark⟩
  exact hs.trace_endsOff hsend hopen d hmark

end Sys2Proof.Machine
end

section
/-! PROOFS. Reset, the host's duties at the ports and the wire durations (70_reset_and_hazards.md R129 to R141). -/

namespace Sys2Proof.Machine

variable {s : State} {xs : List Micros} {g : Micros} {rest : List Input}

/-! ### What the outside does while BUSY = 1 -/

theorem step_eq_busyStep (hb : s.busy = true) : step s = busyStep s := if_pos hb

/-- A command presented during another is not run, whichever it is (70_reset_and_hazards.md R133). -/
theorem exec_ofCommand_of_busy (hb : s.busy = true) (c : Command) :
    exec (Instr.ofCommand c) s = .refused .commandWhileBusy := by
  by_cases hc : c = .decode
  · subst hc
    exact if_pos hb
  · obtain ⟨ps, hsend⟩ := exec_ofCommand_send hc s
    rw [hsend, sendCommand_eq, if_pos hb]

theorem step_command_of_busy {w : CommandWord} (hb : s.busy = true)
    (hin : s.inputs = .command w :: rest ∨ s.inputs = .present w :: rest) : step s = .refused .commandWhileBusy := by
  rw [step_eq_busyStep hb, busyStep]
  obtain hin | hin := hin <;> rw [hin]

/-- Settles O21: neither the instructions of the commands nor the command port take one while BUSY = 1. -/
theorem commandWhileBusyIsRefused : Obligations.CommandWhileBusyIsRefused := fun _ hb =>
  ⟨exec_ofCommand_of_busy hb, fun _ _ hin => step_command_of_busy hb hin⟩

theorem captureWhileBusy_of_decoding (hp : s.phase ≠ .idle) (xs : List Micros) :
    captureWhileBusy xs s = .refused .captureChanged := by
  rw [captureWhileBusy]
  split
  case h_1 hidle => exact absurd hidle hp
  case h_2 => rfl

theorem captureWhileBusy_of_sending (hp : s.phase = .idle) (xs : List Micros) :
    captureWhileBusy xs s = presentCapture xs s := by
  rw [captureWhileBusy, hp]

theorem presentCapture_of_le (hfits : xs.length ≤ s.cfg.captureMax) :
    presentCapture xs s = .next { s with capture := xs } := if_pos hfits

theorem step_captureRaw_of_busy (hb : s.busy = true) (hin : s.inputs = .captureRaw xs :: rest) :
    step s = captureWhileBusy xs { s with inputs := rest } := by
  rw [step_eq_busyStep hb, busyStep, hin]

theorem step_captureRef_of_busy (hb : s.busy = true) (hin : s.inputs = .captureRef g :: rest) :
    step s = captureWhileBusy (captureOf s.lastSend g) { s with inputs := rest } := by
  rw [step_eq_busyStep hb, busyStep, hin]

/-- Settles O22: while BUSY = 1, PHASE tells a DECODE, which refuses both kinds of capture, from a SEND, which takes one. -/
theorem captureMayNotChangeDuringADecode : Obligations.CaptureMayNotChangeDuringADecode := by
  intro s xs g rest hb
  refine ⟨fun hp hin => ?_, fun hp hin hfits => ?_⟩
  · obtain hin | hin := hin
    · rw [step_captureRaw_of_busy hb hin]
      exact captureWhileBusy_of_decoding (s := { s with inputs := rest }) hp xs
    · rw [step_captureRef_of_busy hb hin]
      exact captureWhileBusy_of_decoding (s := { s with inputs := rest }) hp _
  · calc step s
      _ = captureWhileBusy xs { s with inputs := rest } := step_captureRaw_of_busy hb hin
      _ = presentCapture xs { s with inputs := rest } := captureWhileBusy_of_sending (s := { s with inputs := rest }) hp xs
      _ = .next { s with capture := xs, inputs := rest } := presentCapture_of_le hfits

/-! ### Reset -/

theorem step_reset_of_busy (hb : s.busy = true) (hin : s.inputs = .reset :: rest) :
    step s = .next (cutReset { s with inputs := rest }) := by
  rw [step_eq_busyStep hb, busyStep, hin]

theorem step_reset_of_idle (hb : s.busy = false) (hin : s.inputs = .reset :: rest) :
    step s = .next (powerOnReset { s with inputs := rest }) := by
  rw [step, if_neg (by simp [hb]), idleStep, hin]

/-- A mark turns the emitter on, even where a reset had left its level open. -/
theorem emitterOn_emit_mark (d : Micros) (s : State) : emitterOn (emit (.mark d) s) = true := by
  obtain ⟨hmark, -⟩ := emitterLevelFollowsTheLastPulse (emit (.mark d) s) rfl
  exact hmark s.trace d rfl

/-- A space turns the emitter off, even where a reset had left its level open. -/
theorem emitterOn_emit_space (d : Micros) (s : State) : emitterOn (emit (.space d) s) = false := by
  obtain ⟨-, hspace, -⟩ := emitterLevelFollowsTheLastPulse (emit (.space d) s) rfl
  exact hspace s.trace d rfl

/-- Settles O2: a reset is `cutReset` during a command and `powerOnReset` between commands. -/
theorem resetEndsACommandAndOpensTheLevel : Obligations.ResetEndsACommandAndOpensTheLevel := by
  intro s rest hin
  refine ⟨fun hb => ⟨_, step_reset_of_busy hb hin, ?_⟩, fun hb => ⟨_, step_reset_of_idle hb hin, ?_⟩⟩
  · exact ⟨rfl, rfl, rfl, rfl, rfl, rfl, rfl, rfl, rfl, rfl, rfl, rfl, rfl,
      fun d => emitterOn_emit_mark d _, fun d => emitterOn_emit_space d _⟩
  · exact ⟨rfl, rfl, rfl, rfl, rfl, rfl, rfl, rfl, rfl, rfl, rfl, rfl, rfl⟩

/-! ### Power-on -/

theorem powerOn_of_valid {p : Params} (h : p.Valid) : powerOn p = .next (State.resetWith (Config.ofParams p h)) :=
  dif_pos h

theorem powerOn_of_not_valid {p : Params} (h : ¬ p.Valid) : powerOn p = .refused .configInvalid := dif_neg h

/-- R7's own counts are among those the registers hold, whatever `CTRL_PREFIX` is. -/
theorem countsFit_of_countsOfR7 {p : Params} (h : p.CountsOfR7) : p.CountsFit := by
  obtain ⟨hvalue, hmax, hctrl, hprefix, htype, hmin⟩ := h
  have hlt : p.ctrlPrefix.toNat < 2 ^ 5 := p.ctrlPrefix.isLt
  simp only [Params.CountsFit, hvalue, hmax, hctrl, hprefix, htype, hmin, hlt]
  decide

/-- Settles O3: power-on accepts exactly the valid parameters, and each refused set breaks one part of validity. -/
theorem powerOnRefusesAnInvalidConfiguration : Obligations.PowerOnRefusesAnInvalidConfiguration := by
  refine ⟨fun _ => countsFit_of_countsOfR7, fun p => ⟨?accepted, ?prefixTop, ?zeroId, ?narrowPort, ?wrappingPort,
    ?narrowCursor, ?counts⟩⟩
  case accepted =>
    intro hcounts htop hid hproto hsample hsat hcursor hcapture
    have hvalid : p.Valid := ⟨hcounts, htop, hid, hproto, hsample, hsat, max_lt hcursor hcapture⟩
    exact ⟨Config.ofParams p hvalid, rfl, powerOn_of_valid hvalid⟩
  case prefixTop => exact fun h => powerOn_of_not_valid fun ⟨_, htop, _⟩ => Bool.eq_false_iff.mp h htop
  case zeroId => exact fun h => powerOn_of_not_valid fun ⟨_, _, hid, _⟩ => hid h
  case narrowPort => exact fun h => powerOn_of_not_valid fun ⟨_, _, _, _, hsample, _⟩ => Nat.not_lt.mpr h hsample
  case wrappingPort => exact fun h => powerOn_of_not_valid fun ⟨_, _, _, _, _, hsat, _⟩ => Bool.eq_false_iff.mp h hsat
  case narrowCursor =>
    exact fun h => powerOn_of_not_valid fun ⟨_, _, _, _, _, _, hcursor⟩ => Nat.not_lt.mpr h hcursor
  case counts => exact fun h => powerOn_of_not_valid fun ⟨hcounts, _⟩ => h hcounts

/-! ### Wire durations -/

theorem wireDuration_append (ps qs : List Pulse) : wireDuration (ps ++ qs) = wireDuration ps + wireDuration qs := by
  simp [wireDuration]

/-- The payload's time, by how many bits of each value it has. -/
theorem wireDuration_payload (t : Timing) (payload : List Bool) :
    wireDuration (payload.flatMap (bitPulses t)) =
      payload.count true * wireDuration (bitPulses t true) + payload.count false * wireDuration (bitPulses t false) := by
  induction payload with
  | nil => simp [wireDuration]
  | cons b payload ih =>
    rw [List.flatMap_cons, wireDuration_append, ih]
    cases b with
    | false => rw [List.count_cons_of_ne (by decide), List.count_cons_self]; ring
    | true => rw [List.count_cons_self, List.count_cons_of_ne (by decide)]; ring

/-- The formula of 70_reset_and_hazards.md R141: a 0 takes 1120 µs, and a 1 takes 1130 µs more. -/
theorem wireDuration_framePulses (payload : List Bool) :
    wireDuration (framePulses Timing.normative payload) =
      14060 + 1120 * payload.length + 1130 * payload.count true := by
  have hone : wireDuration (bitPulses Timing.normative true) = 2250 := rfl
  have hzero : wireDuration (bitPulses Timing.normative false) = 1120 := rfl
  have hheader : wireDuration (headerPulses Timing.normative) = 13500 := rfl
  have hend : wireDuration (endPulses Timing.normative) = 560 := rfl
  rw [framePulses, wireDuration_append, wireDuration_append, wireDuration_payload, hone, hzero, hheader, hend,
    ← List.count_true_add_count_false payload]
  ring

theorem count_true_msbFirst_zero (w n : Nat) : (msbFirst (0 : BitVec w).getLsbD n).count true = 0 := by
  rw [msbFirst_eq_map, List.count_eq_zero]
  simp

theorem count_true_msbFirst_allOnes (w : Nat) : (msbFirst (BitVec.allOnes w).getLsbD w).count true = w := by
  have hall : ∀ b ∈ msbFirst (BitVec.allOnes w).getLsbD w, true = b := by
    rw [msbFirst_eq_map]
    simp only [List.mem_map, List.mem_range, BitVec.getLsbD_allOnes]
    rintro _ ⟨k, hk, rfl⟩
    exact (decide_eq_true (by omega)).symm
  rw [List.count_eq_length.mpr hall, length_msbFirst]

/-- A control frame's time, by the ones of its byte. -/
theorem wireDuration_controlPulses {c : Config} (htiming : c.timing = Timing.normative) (hc : c.CountsOfR7)
    (code : ControlCode) :
    wireDuration (controlPulses c code) =
      23020 + 1130 * (msbFirst (c.ctrlPrefix ++ code.type : BitVec 8).getLsbD 8).count true := by
  rw [controlPulses_of_countsOfR7 hc, htiming, wireDuration_framePulses, length_msbFirst]

/-- A 64-bit data frame's time, by the ones of its value. -/
theorem wireDuration_dataPulses_64 {c : Config} (htiming : c.timing = Timing.normative) (hc : c.CountsOfR7)
    (v : DataValue) :
    wireDuration (dataPulses c v 64) = 85740 + 1130 * (msbFirst v.getLsbD 64).count true := by
  obtain ⟨-, hmax, -⟩ := hc
  rw [dataPulses_of_le (n := 64) (by rw [hmax]; decide), htiming, wireDuration_framePulses, length_msbFirst]
  rfl

/-- Settles O18: the frame's formula, and the ones of each control byte and of a 64-bit value. -/
theorem wireDurationOfAFrame : Obligations.WireDurationOfAFrame := by
  refine ⟨rfl, rfl, rfl, rfl, wireDuration_framePulses, fun c htiming hc hprefix => ?_, fun c htiming hc => ?_⟩
  · simp only [wireDuration_controlPulses htiming hc, hprefix]
    decide
  · simp only [wireDuration_dataPulses_64 htiming hc]
    refine ⟨?_, ?_, fun v => ?_, fun v n hn => ?_⟩
    · rw [count_true_msbFirst_zero]
    · rw [count_true_msbFirst_allOnes]
    · have hones := List.count_le_length (a := true) (l := msbFirst v.getLsbD 64)
      rw [length_msbFirst] at hones
      exact ⟨Nat.le_add_right _ _, Nat.add_le_add_left (Nat.mul_le_mul_left 1130 hones) 85740⟩
    · obtain ⟨-, hmax, -⟩ := hc
      rw [dataPulses_of_gt (hmax ▸ hn)]
      rfl

end Sys2Proof.Machine
end

section
/-! PROOFS. The written-out command words of 95_test_vectors.md, section 2.7: the words the encoder writes, and the words
only the opcode map speaks of (30_encoding.md R67, R68). -/

namespace Sys2Proof

/-- The word written for a command selects that command's instruction. -/
theorem decode_of_encodeCommand_eq {cmd : Command} {w : CommandWord} (h : encodeCommand cmd = w) :
    decode w = .ok (Instr.ofCommand cmd) :=
  h ▸ decode_of_ok (decodeCommand_encodeCommand cmd)

/-- Settles O26: eight of the words are their command's encoding, R71's in hexadecimal or SENDD's; the two with ignored
fields (V-W5, V-W10) and the three refused ones (V-W1 to V-W3) follow the opcode map. -/
theorem writtenOutWordsDecode : Obligations.WrittenOutWordsDecode := by
  obtain ⟨hstart, hend, hack, hnack, -, hdecode⟩ := commandWordsInHexadecimal
  have hsendd (v : DataValue) (n : BitVec 8) {w : CommandWord} (h : encodeCommand (.sendData v n) = w) :
      decode w = .ok (.sendd v n) := decode_of_encodeCommand_eq h
  have hackIgnoringReserved : decode 0xED = .ok .sendcAck :=
    decode_of_ok (decodeCommand_sendControl (code := .ack) rfl rfl)
  have hdecodeIgnoringRest : decode 0xFFFFFFFFFFFFFFFFFFFF = .ok .decode := decode_of_ok (decodeCommand_decode rfl)
  have hop0 : decode 0x0 = .error .reservedOp := decode_of_error (decodeCommand_reservedOp rfl)
  have hctype0 : decode 0x1 = .error (.reservedCtype 0) := decode_of_error (decodeCommand_reservedCtype rfl (by decide))
  have hctype5 : decode 0x15 = .error (.reservedCtype 5) := decode_of_error (decodeCommand_reservedCtype rfl (by decide))
  exact ⟨decode_of_encodeCommand_eq hstart, decode_of_encodeCommand_eq hend, decode_of_encodeCommand_eq hack,
    decode_of_encodeCommand_eq hnack, decode_of_encodeCommand_eq hdecode, hackIgnoringReserved,
    hsendd 0x35 8 rfl, hsendd 0x7FFFFFFFFFFFFFFF 64 rfl, hsendd 0xF 70 rfl, hdecodeIgnoringRest,
    hop0, hctype0, hctype5⟩

end Sys2Proof
end
